-- ==== Sys2Proof/Word.lean ====
section
/-! DEFINITION. The word types (R3): a register word, a byte, a 96-bit instruction word. -/

namespace Sys2Proof

/-- A 64-bit register value. -/
abbrev Word := BitVec 64

/-- A byte of memory. -/
abbrev Byte := BitVec 8

/-- A 96-bit instruction word (R66). -/
abbrev InstrWord := BitVec 96

end Sys2Proof
end

