-- ==== Sys2Proof/Machine/Numbers.lean ====
section
/-! DEFINITION. Number formats and rounding (02_number_formats.md): exact values, the floating-point formats of R36, rounding
under R41-R45, conversion to integers, and MIX64. -/

namespace Sys2Proof.Machine

/-- FP exceptions in the bit order of R24: invalid 4, divide by zero 3, overflow 2, underflow 1, inexact 0. -/
abbrev FpFlags := BitVec 5

def flagInvalid : FpFlags := 16#5
def flagDivZero : FpFlags := 8#5
def flagOverflow : FpFlags := 4#5
def flagUnderflow : FpFlags := 2#5
def flagInexact : FpFlags := 1#5

/-- A value: NaN, an infinity, or an exact signed rational num/den with den positive (a zero keeps its sign). -/
inductive Val where
  | nan (signalling : Bool)
  | inf (neg : Bool)
  | fin (neg : Bool) (num den : Nat)
deriving DecidableEq, Repr

/-- A floating-point format of R36: fraction bits, exponent bits, bias, largest exponent and fraction of a finite value,
whether it has infinities, its canonical NaN, and whether it has signalling NaNs (R37). -/
structure FloatFmt where
  fbits : Nat
  ebits : Nat
  bias : Nat
  maxE : Nat
  maxF : Nat
  hasInf : Bool
  nan : Nat
  hasSnan : Bool
deriving DecidableEq, Repr

def fp64 : FloatFmt := ⟨52, 11, 1023, 2046, 2 ^ 52 - 1, true, 0x7FF8000000000000, true⟩
def fp32 : FloatFmt := ⟨23, 8, 127, 254, 2 ^ 23 - 1, true, 0x7FC00000, true⟩
def fp16 : FloatFmt := ⟨10, 5, 15, 30, 2 ^ 10 - 1, true, 0x7E00, true⟩
def bf16 : FloatFmt := ⟨7, 8, 127, 254, 2 ^ 7 - 1, true, 0x7FC0, true⟩
def fa48 : FloatFmt := ⟨36, 11, 1023, 2046, 2 ^ 36 - 1, true, 0x7FF800000000, false⟩
def e5m2 : FloatFmt := ⟨2, 5, 15, 30, 3, true, 0x7E, false⟩
def e4m3 : FloatFmt := ⟨3, 4, 7, 15, 6, false, 0x7F, false⟩
def e2m1 : FloatFmt := ⟨1, 2, 1, 3, 1, false, 0, false⟩

/-- The precision p of a format (R36). -/
def FloatFmt.prec (f : FloatFmt) : Nat := f.fbits + 1

/-- The exponent of the smallest normal (R36). -/
def FloatFmt.emin (f : FloatFmt) : Int := 1 - (f.bias : Int)

/-- The sign bit's place. -/
def FloatFmt.signBit (f : FloatFmt) : Nat := 2 ^ (f.fbits + f.ebits)

/-- The encoding of an infinity. -/
def FloatFmt.infBits (f : FloatFmt) : Nat := (2 ^ f.ebits - 1) * 2 ^ f.fbits

/-- The encoding of the largest finite magnitude. -/
def FloatFmt.maxBits (f : FloatFmt) : Nat := f.maxE * 2 ^ f.fbits + f.maxF

/-- m·2^e as an exact value. -/
def dyadic (neg : Bool) (m : Nat) (e : Int) : Val :=
  if 0 ≤ e then .fin neg (m * 2 ^ e.toNat) 1 else .fin neg m (2 ^ (-e).toNat)

/-- The value of an encoding (R36, R37). -/
def decodeFloat (f : FloatFmt) (b : Nat) : Val :=
  let neg := b / f.signBit % 2 == 1
  let e := b / 2 ^ f.fbits % 2 ^ f.ebits
  let m := b % 2 ^ f.fbits
  if e > f.maxE ∨ (e = f.maxE ∧ m > f.maxF) then
    (if f.hasInf ∧ m = 0 then .inf neg else .nan (f.hasSnan && m / 2 ^ (f.fbits - 1) % 2 == 0))
  else if e = 0 then dyadic neg m (f.emin - f.fbits)
  else dyadic neg (2 ^ f.fbits + m) ((e : Int) - f.bias - f.fbits)

/-- How a rounding picks between the two neighbours: R41, R45 (a draw of 32 bits). -/
inductive Mode where
  | nearest
  | zero
  | down
  | up
  | stochastic (draw : BitVec 32)
deriving DecidableEq, Repr

/-- ⌊log2 (num/den)⌋ for positive num and den. -/
def floorLog2 (num den : Nat) : Int :=
  let k : Int := (num.log2 : Int) - den.log2
  if 0 ≤ k then (if den * 2 ^ k.toNat ≤ num then k else k - 1)
  else (if den ≤ num * 2 ^ (-k).toNat then k else k - 1)

/-- Whether the magnitude with quotient q, remainder r of den goes up one step (R41, R45). -/
def roundsUp (m : Mode) (neg : Bool) (q r den : Nat) : Bool :=
  match m with
  | .nearest => decide (den < 2 * r) || (decide (2 * r = den) && q % 2 == 1)
  | .zero => false
  | .down => neg && decide (r ≠ 0)
  | .up => !neg && decide (r ≠ 0)
  | .stochastic d => decide (d.toNat < r * 2 ^ 32 / den)

/-- num/den over 2^qe as a quotient, a remainder and the remainder's denominator. -/
def scaleDiv (num den : Nat) (qe : Int) : Nat × Nat × Nat :=
  if 0 ≤ qe then (num / (den * 2 ^ qe.toNat), num % (den * 2 ^ qe.toNat), den * 2 ^ qe.toNat)
  else (num * 2 ^ (-qe).toNat / den, num * 2 ^ (-qe).toNat % den, den)

/-- What rounding gives: the encoding and the exceptions it raises. -/
structure Rounded where
  code : Nat
  flags : FpFlags
deriving DecidableEq, Repr

/-- The code of an overflow (R42): by format, sign, mode and the .INF modifier. The table's cell for Down and Up is taken by its words: a negative
result rounded up is +largest, and a positive one rounded down −largest (DEDUCED, log entry 47). -/
def overflowCode (f : FloatFmt) (neg : Bool) (m : Mode) (inf : Bool) : Nat :=
  let s := if neg then f.signBit else 0
  if f = e2m1 then s + f.maxBits
  else if f = e4m3 then (if inf then f.nan else s + f.maxBits)
  else if f = e5m2 then (if inf then s + f.infBits else s + f.maxBits)
  else match m with
    | .nearest => s + f.infBits
    | .zero => s + f.maxBits
    | .down => f.signBit + if neg then f.infBits else f.maxBits
    | .up => if neg then f.maxBits else f.infBits
    | .stochastic _ => if inf then s + f.infBits else s + f.maxBits

/-- RND of a finite magnitude num/den to a format (R41, R42, R45) with its exceptions (R54). -/
def roundFin (f : FloatFmt) (m : Mode) (inf : Bool) (neg : Bool) (num den : Nat) : Rounded :=
  let s := if neg then f.signBit else 0
  if num = 0 then ⟨s, 0#5⟩
  else
    let e := max (floorLog2 num den) f.emin
    let (q, r, d) := scaleDiv num den (e - f.fbits)
    let q' := if roundsUp m neg q r d then q + 1 else q
    let inexact := r != 0
    let code := ((e - f.emin).toNat) * 2 ^ f.fbits + q'
    let tiny := decide (code < 2 ^ f.fbits)
    let fl := (if inexact then flagInexact else 0#5) ||| (if inexact && tiny then flagUnderflow else 0#5)
    if code > f.maxBits then ⟨overflowCode f neg m inf, flagOverflow ||| flagInexact⟩
    else ⟨s + code, fl⟩

/-- RND of any value to a floating-point format other than E2M1 (R41-R43): NaN is canonical, a signalling NaN raises invalid. -/
def roundVal (f : FloatFmt) (m : Mode) (inf : Bool) (v : Val) : Rounded :=
  match v with
  | .nan sig => ⟨f.nan, if sig then flagInvalid else 0#5⟩
  | .inf neg =>
    if f.hasInf ∧ (f ≠ e5m2 ∨ inf) then ⟨(if neg then f.signBit else 0) + f.infBits, 0#5⟩
    else ⟨overflowCode f neg m inf, flagOverflow ||| flagInexact⟩
  | .fin neg num den => roundFin f m inf neg num den

/-- An exact value rounded to an integer under a mode, with no bound (R41, R44). -/
def roundInt (m : Mode) (neg : Bool) (num den : Nat) : Int × Bool :=
  let q := num / den
  let r := num % den
  let q' := if roundsUp m neg q r den then q + 1 else q
  (if neg then -(q' : Int) else (q' : Int), r != 0)

/-- SAT of R44. -/
def sat (v lo hi : Int) : Int := if v < lo then lo else if hi < v then hi else v

/-- Conversion of a value to an integer range (R43, R44): the integer and its exceptions. A nonzero value that rounds to 0 is inexact and an
underflow, as R54 has it of every rounded result (DEDUCED, log entry 48). -/
def toIntRange (m : Mode) (lo hi : Int) (v : Val) : Int × FpFlags :=
  match v with
  | .nan _ => (0, flagInvalid)
  | .inf neg => (if neg then lo else hi, flagInvalid)
  | .fin neg num den =>
    let (i, inexact) := roundInt m neg num den
    let c := sat i lo hi
    (c, if c ≠ i then flagOverflow ||| flagInexact
      else if inexact then (if i = 0 then flagInexact ||| flagUnderflow else flagInexact) else 0#5)

/-- An integer as a value. -/
def ofInt (i : Int) : Val := .fin (decide (i < 0)) i.natAbs 1

/-- The sign of a value (of a NaN: plus). -/
def Val.neg? : Val → Bool
  | .nan _ => false
  | .inf n => n
  | .fin n _ _ => n

/-- A value with its sign inverted. -/
def Val.negate : Val → Val
  | .nan s => .nan s
  | .inf n => .inf (!n)
  | .fin n a b => .fin (!n) a b

def Val.isNan : Val → Bool
  | .nan _ => true
  | _ => false

def Val.isSnan : Val → Bool
  | .nan s => s
  | _ => false

def Val.isZero : Val → Bool
  | .fin _ 0 _ => true
  | _ => false

/-- invalid when any operand is a signalling NaN (R37). -/
def snanFlag (vs : List Val) : FpFlags := if vs.any Val.isSnan then flagInvalid else 0#5

/-- A common denominator of two fractions: the larger one when it is a multiple of the other. -/
def commonDen (d d' : Nat) : Nat := if d' % d = 0 then d' else if d % d' = 0 then d else d * d'

/-- The exact sum of two values (R37): the sign of an exact zero is minus only toward −∞; ∞ − ∞ is NaN and invalid. -/
def addVal (down : Bool) (a b : Val) : Val × FpFlags :=
  match a, b with
  | .nan s, y => (.nan false, snanFlag [.nan s, y])
  | x, .nan s => (.nan false, snanFlag [x, .nan s])
  | .inf n, .inf n' => if n = n' then (.inf n, 0#5) else (.nan false, flagInvalid)
  | .inf n, .fin .. => (.inf n, 0#5)
  | .fin .., .inf n => (.inf n, 0#5)
  | .fin n p d, .fin n' p' d' =>
    let k := commonDen d d'
    let l := p * (k / d)
    let r := p' * (k / d')
    if n = n' then (.fin n (l + r) k, 0#5)
    else if l = r then (.fin down 0 1, 0#5)
    else if r < l then (.fin n (l - r) k, 0#5)
    else (.fin n' (r - l) k, 0#5)

/-- The exact product of two values: 0·∞ is NaN and invalid. -/
def mulVal (a b : Val) : Val × FpFlags :=
  match a, b with
  | .nan s, y => (.nan false, snanFlag [.nan s, y])
  | x, .nan s => (.nan false, snanFlag [x, .nan s])
  | .inf n, .inf n' => (.inf (n != n'), 0#5)
  | .inf n, .fin n' p _ => if p = 0 then (.nan false, flagInvalid) else (.inf (n != n'), 0#5)
  | .fin n p _, .inf n' => if p = 0 then (.nan false, flagInvalid) else (.inf (n != n'), 0#5)
  | .fin n p d, .fin n' p' d' => (.fin (n != n') (p * p') (d * d'), 0#5)

/-- The exact quotient of two values: 0/0 and ∞/∞ are NaN and invalid, a finite nonzero value over zero divides by zero. -/
def divVal (a b : Val) : Val × FpFlags :=
  match a, b with
  | .nan s, y => (.nan false, snanFlag [.nan s, y])
  | x, .nan s => (.nan false, snanFlag [x, .nan s])
  | .inf _, .inf _ => (.nan false, flagInvalid)
  | .inf n, .fin n' _ _ => (.inf (n != n'), 0#5)
  | .fin n _ _, .inf n' => (.fin (n != n') 0 1, 0#5)
  | .fin n p d, .fin n' p' d' =>
    if p' = 0 then (if p = 0 then (.nan false, flagInvalid) else (.inf (n != n'), flagDivZero))
    else (.fin (n != n') (p * d') (d * p'), 0#5)

/-- a·b + c with one rounding to come; 0·∞ raises invalid even when c is a quiet NaN (R99). -/
def fmaVal (down : Bool) (a b c : Val) : Val × FpFlags :=
  let (p, f) := mulVal a b
  let (r, g) := addVal down p c
  (r, f ||| g)

/-- The integer square root by Newton steps that only go down, on fuel. -/
def isqrtGo : Nat → Nat → Nat → Nat
  | 0, _, g => g
  | k + 1, n, g =>
    let g' := (g + n / g) / 2
    if g' < g then isqrtGo k n g' else g

/-- ⌊√n⌋. -/
def isqrt (n : Nat) : Nat :=
  if n = 0 then 0 else isqrtGo (n.log2 + 2) n (2 ^ (n.log2 / 2 + 1))

/-- √(num/den) as a rational: exact when it is rational with a square numerator and denominator in lowest scale, and otherwise cut
far below every format's precision with an odd last place, so that no rounding can tell it from the exact root. -/
def sqrtRat (num den : Nat) : Nat × Nat :=
  let k := 2 * (256 + den.log2)
  let n := num * 2 ^ k / den
  let s := isqrt n
  if s * s = n ∧ num * 2 ^ k % den = 0 then (s, 2 ^ (k / 2)) else (2 * s + 1, 2 ^ (k / 2 + 1))

/-- The exact square root of a value (R54, R99): √(−0) is −0, a negative nonzero value is NaN and invalid. -/
def sqrtVal (a : Val) : Val × FpFlags :=
  match a with
  | .nan s => (.nan false, if s then flagInvalid else 0#5)
  | .inf n => if n then (.nan false, flagInvalid) else (.inf false, 0#5)
  | .fin n p d =>
    if p = 0 then (.fin n 0 1, 0#5)
    else if n then (.nan false, flagInvalid)
    else let (x, y) := sqrtRat p d; (.fin false x y, 0#5)

/-- Order of two values that are not NaN, with −0 below +0 (R100): a is at or below b. -/
def leVal (a b : Val) : Bool :=
  match a, b with
  | .inf n, .inf n' => n || !n'
  | .inf n, _ => n
  | _, .inf n' => !n'
  | .fin n p d, .fin n' p' d' =>
    if n && !n' then true
    else if !n && n' then false
    else if n then decide (p' * d ≤ p * d') else decide (p * d' ≤ p' * d)
  | _, _ => false

/-- Equality and strict order of two values that are not NaN, where −0 equals +0. -/
def eqVal (a b : Val) : Bool := (a.isZero && b.isZero) || (leVal a b && leVal b a)
def ltVal (a b : Val) : Bool := leVal a b && !eqVal a b

/-- FMIN and FMAX (R100): which operand's code is taken, the canonical NaN when both are NaN; a signalling NaN raises invalid. -/
def minMaxCode (f : FloatFmt) (takeMin : Bool) (a b : Nat) : Nat × FpFlags :=
  let x := decodeFloat f a
  let y := decodeFloat f b
  let fl := snanFlag [x, y]
  (match x.isNan, y.isNan with
    | true, true => f.nan
    | true, false => b
    | false, true => a
    | false, false => if leVal x y = takeMin then a else b, fl)

/-- A floating-point condition of R76 with the invalid exception of R101. -/
def fpCondHolds (cond : BitVec 4) (a b : Val) : Bool × FpFlags :=
  let un := a.isNan || b.isNan
  let quiet := snanFlag [a, b]
  let loud := if un then flagInvalid else 0#5
  match cond.toNat with
  | 0 => (!un && eqVal a b, quiet)
  | 1 => (un || !eqVal a b, quiet)
  | 2 => (!un && ltVal a b, loud)
  | 3 => (!un && (leVal b a || eqVal a b), loud)
  | 4 => (!un && (leVal a b || eqVal a b), loud)
  | 5 => (!un && ltVal b a, loud)
  | _ => (un, quiet)

/-- An integer condition of R76. -/
def intCondHolds {w : Nat} (cond : BitVec 4) (a b : BitVec w) : Bool :=
  match cond.toNat with
  | 0 => a == b
  | 1 => a != b
  | 2 => a.slt b
  | 3 => b.sle a
  | 4 => a.sle b
  | 5 => b.slt a
  | 6 => a.ult b
  | 7 => b.ule a
  | 8 => a.ule b
  | _ => b.ult a

/-- MIX64 (R47). -/
def mix64 (z : BitVec 64) : BitVec 64 :=
  let z := z ^^^ (z >>> 31)
  let z := z * 0x9E6C63D0676A9A99#64
  let z := z ^^^ (z >>> 29)
  let z := z * 0xA3B195F42C6E5A1D#64
  z ^^^ (z >>> 32)

/-- The stochastic-rounding draw of an element (R45, R46). -/
def srDraw (seed : BitVec 64) (serial : BitVec 44) (e : Nat) : BitVec 64 :=
  mix64 (seed ^^^ (BitVec.ofNat 64 (serial.toNat * 2 ^ 20 + e)))

/-- TREE48 over a list of exact terms (R50): pairs of neighbours are added level by level, each sum rounded to FA48. Terms are
first rounded to FA48; the result is an FA48 code. -/
def treeLevel : List Nat → List Nat
  | a :: b :: rest => (roundVal fa48 .nearest false (addVal false (decodeFloat fa48 a) (decodeFloat fa48 b)).1).code :: treeLevel rest
  | rest => rest

/-- The exceptions of the additions of one level: ∞ − ∞ is invalid (R54). -/
def treeLevelFlags : List Nat → FpFlags
  | a :: b :: rest => (addVal false (decodeFloat fa48 a) (decodeFloat fa48 b)).2 ||| treeLevelFlags rest
  | _ => 0#5

def treeGo : Nat → List Nat → Nat
  | 0, l => l.headD 0
  | k + 1, l => treeGo k (treeLevel l)

/-- TREE48 of the terms padded with +0 to 2^k terms (R50, R160, R195). -/
def tree48 (k : Nat) (terms : List Val) : Nat :=
  let l := terms.map (fun v => (roundVal fa48 .nearest false v).code)
  treeGo k (l ++ List.replicate (2 ^ k - l.length) 0)

/-- The exceptions of every addition of TREE48. -/
def treeFlagsGo : Nat → List Nat → FpFlags
  | 0, _ => 0#5
  | k + 1, l => treeLevelFlags l ||| treeFlagsGo k (treeLevel l)

def tree48Flags (k : Nat) (terms : List Val) : FpFlags :=
  let l := terms.map (fun v => (roundVal fa48 .nearest false v).code)
  treeFlagsGo k (l ++ List.replicate (2 ^ k - l.length) 0)

/-- The exact sum of a list of products under R49 and R37: a zero is −0 only when every term is −0. -/
def exactSum (terms : List Val) : Val :=
  match terms with
  | [] => .fin false 0 1
  | t :: ts => ts.foldl (fun acc v => (addVal false acc v).1) t

/-- a + v rounded to FA48 (the accumulation step of R49 and R50). -/
def accumulate (a : BitVec 48) (v : Val) : BitVec 48 :=
  let t := decodeFloat fa48 (roundVal fa48 .nearest false v).code
  BitVec.ofNat 48 (roundVal fa48 .nearest false (addVal false (decodeFloat fa48 a.toNat) t).1).code

end Sys2Proof.Machine
end

