-- ==== Sys2Proof/Syntax.lean ====
section
/-! DEFINITION. The instructions and events of the opcode table: one constructor per row of `spec/opcode_table.json`, in its order.
The first 182 rows are Clouno-1 instructions, whose arguments are the raw bit fields of the word (R66-R81).
The other rows are events of the part: their arguments say which unit, entry or request the event concerns. -/

namespace Sys2Proof

/-- One row of the opcode table. -/
inductive Instr where
  /-- NOP (R67) -/
  | nop
  /-- HALT (R320) -/
  | halt
  /-- TRAP (R318) -/
  | trap (imm : BitVec 64)
  /-- SYSCALL (R318) -/
  | syscall (imm : BitVec 64)
  /-- ERET (R319) -/
  | eret
  /-- MFS (R322) -/
  | mfs (xd : BitVec 6) (sreg : BitVec 12)
  /-- MTS (R323) -/
  | mts (xa : BitVec 6) (sreg : BitVec 12)
  /-- MTS_SEED (R323) -/
  | mtsSeed (xa : BitVec 6)
  /-- MTS_ASID (R323) -/
  | mtsAsid (xa : BitVec 6)
  /-- MTS_TVEC (R323) -/
  | mtsTvec (xa : BitVec 6)
  /-- MTS_PS (R24) -/
  | mtsPs (xa : BitVec 6)
  /-- MTS_SHAPE (R21) -/
  | mtsShape (h : BitVec 3) (xa : BitVec 6)
  /-- IFENCE (R298) -/
  | ifence
  /-- CTXMARK (R324) -/
  | ctxmark
  /-- SLEEP (R321) -/
  | sleep (xd : BitVec 6) (xa : BitVec 6)
  /-- PREACK (R325) -/
  | preack (xa : BitVec 6)
  /-- OBJDECL (R302) -/
  | objdecl (xa : BitVec 6)
  /-- OBJDROP (R302) -/
  | objdrop (xa : BitVec 6)
  /-- STMAP (R304) -/
  | stmap (index : BitVec 8) (xa : BitVec 6) (xb : BitVec 6) (imm : BitVec 32)
  /-- STMAP_APERTURE (R305) -/
  | stmapAperture (xa : BitVec 6) (xb : BitVec 6)
  /-- STUNMAP (R306) -/
  | stunmap (index : BitVec 8)
  /-- STFLUSH (R306) -/
  | stflush (index : BitVec 8) (sel : BitVec 4)
  /-- ADD (R93) -/
  | add (xd : BitVec 6) (xa : BitVec 6) (xb : BitVec 6)
  /-- SUB (R93) -/
  | sub (xd : BitVec 6) (xa : BitVec 6) (xb : BitVec 6)
  /-- MUL (R93) -/
  | mul (xd : BitVec 6) (xa : BitVec 6) (xb : BitVec 6)
  /-- MULH (R93) -/
  | mulh (xd : BitVec 6) (xa : BitVec 6) (xb : BitVec 6) (u : Bool)
  /-- DIV (R94) -/
  | div (xd : BitVec 6) (xa : BitVec 6) (xb : BitVec 6) (u : Bool)
  /-- REM (R93) -/
  | rem (xd : BitVec 6) (xa : BitVec 6) (xb : BitVec 6) (u : Bool)
  /-- AND (R93) -/
  | and (xd : BitVec 6) (xa : BitVec 6) (xb : BitVec 6)
  /-- OR (R93) -/
  | or (xd : BitVec 6) (xa : BitVec 6) (xb : BitVec 6)
  /-- XOR (R93) -/
  | xor (xd : BitVec 6) (xa : BitVec 6) (xb : BitVec 6)
  /-- ANDN (R93) -/
  | andn (xd : BitVec 6) (xa : BitVec 6) (xb : BitVec 6)
  /-- SHL (R93) -/
  | shl (xd : BitVec 6) (xa : BitVec 6) (xb : BitVec 6)
  /-- SHR (R93) -/
  | shr (xd : BitVec 6) (xa : BitVec 6) (xb : BitVec 6)
  /-- SAR (R93) -/
  | sar (xd : BitVec 6) (xa : BitVec 6) (xb : BitVec 6)
  /-- MIN (R93) -/
  | min (xd : BitVec 6) (xa : BitVec 6) (xb : BitVec 6) (u : Bool)
  /-- MAX (R93) -/
  | max (xd : BitVec 6) (xa : BitVec 6) (xb : BitVec 6) (u : Bool)
  /-- CMP (R93) -/
  | cmp (xd : BitVec 6) (xa : BitVec 6) (xb : BitVec 6) (cond : BitVec 4)
  /-- ADDI (R96) -/
  | addi (xd : BitVec 6) (xa : BitVec 6) (imm : BitVec 64)
  /-- MULI (R96) -/
  | muli (xd : BitVec 6) (xa : BitVec 6) (imm : BitVec 64)
  /-- ANDI (R96) -/
  | andi (xd : BitVec 6) (xa : BitVec 6) (imm : BitVec 64)
  /-- ORI (R96) -/
  | ori (xd : BitVec 6) (xa : BitVec 6) (imm : BitVec 64)
  /-- XORI (R96) -/
  | xori (xd : BitVec 6) (xa : BitVec 6) (imm : BitVec 64)
  /-- SHLI (R96) -/
  | shli (xd : BitVec 6) (xa : BitVec 6) (imm : BitVec 64)
  /-- SHRI (R96) -/
  | shri (xd : BitVec 6) (xa : BitVec 6) (imm : BitVec 64)
  /-- SARI (R96) -/
  | sari (xd : BitVec 6) (xa : BitVec 6) (imm : BitVec 64)
  /-- CMPI (R96) -/
  | cmpi (xd : BitVec 6) (xa : BitVec 6) (imm : BitVec 64) (cond : BitVec 4)
  /-- MOVI (R96) -/
  | movi (xd : BitVec 6) (imm : BitVec 64)
  /-- CLZ (R96) -/
  | clz (xd : BitVec 6) (xa : BitVec 6)
  /-- CTZ (R96) -/
  | ctz (xd : BitVec 6) (xa : BitVec 6)
  /-- POPC (R96) -/
  | popc (xd : BitVec 6) (xa : BitVec 6)
  /-- SEXT (R96) -/
  | sext (xd : BitVec 6) (xa : BitVec 6) (imm : BitVec 64)
  /-- ZEXT (R96) -/
  | zext (xd : BitVec 6) (xa : BitVec 6) (imm : BitVec 64)
  /-- SEL (R96) -/
  | sel (xd : BitVec 6) (xa : BitVec 6) (xb : BitVec 6) (xc : BitVec 6)
  /-- FADD (R99) -/
  | fadd (xd : BitVec 6) (xa : BitVec 6) (xb : BitVec 6) (width : Bool) (rmode : BitVec 3)
  /-- FSUB (R99) -/
  | fsub (xd : BitVec 6) (xa : BitVec 6) (xb : BitVec 6) (width : Bool) (rmode : BitVec 3)
  /-- FMUL (R99) -/
  | fmul (xd : BitVec 6) (xa : BitVec 6) (xb : BitVec 6) (width : Bool) (rmode : BitVec 3)
  /-- FFMA (R99) -/
  | ffma (xd : BitVec 6) (xa : BitVec 6) (xb : BitVec 6) (xc : BitVec 6) (width : Bool) (rmode : BitVec 3)
  /-- FDIV (R99) -/
  | fdiv (xd : BitVec 6) (xa : BitVec 6) (xb : BitVec 6) (width : Bool) (rmode : BitVec 3)
  /-- FSQRT (R99) -/
  | fsqrt (xd : BitVec 6) (xa : BitVec 6) (width : Bool) (rmode : BitVec 3)
  /-- FMIN (R100) -/
  | fmin (xd : BitVec 6) (xa : BitVec 6) (xb : BitVec 6) (width : Bool)
  /-- FMAX (R100) -/
  | fmax (xd : BitVec 6) (xa : BitVec 6) (xb : BitVec 6) (width : Bool)
  /-- FCMP (R101) -/
  | fcmp (xd : BitVec 6) (xa : BitVec 6) (xb : BitVec 6) (width : Bool) (cond : BitVec 4)
  /-- FCVT (R102) -/
  | fcvt (xd : BitVec 6) (xa : BitVec 6) (stype : BitVec 3) (dtype : BitVec 3) (rmode : BitVec 3)
  /-- BR (R106) -/
  | br (xa : BitVec 6) (xb : BitVec 6) (cond : BitVec 4) (tslot : BitVec 3) (imm : BitVec 64)
  /-- BRI (R106) -/
  | bri (xa : BitVec 6) (k : BitVec 6) (cond : BitVec 4) (tslot : BitVec 3) (imm : BitVec 64)
  /-- JMP (R106) -/
  | jmp (tslot : BitVec 3) (imm : BitVec 64)
  /-- JMPR (R106) -/
  | jmpr (xa : BitVec 6)
  /-- CALL (R107) -/
  | call (tslot : BitVec 3) (imm : BitVec 64)
  /-- CALLR (R107) -/
  | callr (xa : BitVec 6)
  /-- LOOP (R108) -/
  | loop (xa : BitVec 6) (tslot : BitVec 3) (imm : BitVec 64)
  /-- CMPSK (R110) -/
  | cmpsk (xa : BitVec 6) (xb : BitVec 6) (cond : BitVec 4) (skip : BitVec 2)
  /-- CMPSKI (R110) -/
  | cmpski (xa : BitVec 6) (cond : BitVec 4) (skip : BitVec 2) (imm : BitVec 64)
  /-- LD (R115) -/
  | ld (xd : BitVec 6) (xa : BitVec 6) (imm : BitVec 64) (size : BitVec 2) (sx : Bool)
  /-- ST (R115) -/
  | st (xd : BitVec 6) (xa : BitVec 6) (imm : BitVec 64) (size : BitVec 2)
  /-- LDA (R117) -/
  | lda (xd : BitVec 6) (xa : BitVec 6) (imm : BitVec 64) (size : BitVec 2) (sx : Bool) (scope : BitVec 2)
  /-- STL (R118) -/
  | stl (xd : BitVec 6) (xa : BitVec 6) (imm : BitVec 64) (size : BitVec 2) (scope : BitVec 2)
  /-- AADD (R119) -/
  | aadd (xd : BitVec 6) (xa : BitVec 6) (xb : BitVec 6) (size : BitVec 2) (scope : BitVec 2) (acq : Bool) (rel : Bool)
  /-- AMIN (R119) -/
  | amin (xd : BitVec 6) (xa : BitVec 6) (xb : BitVec 6) (size : BitVec 2) (scope : BitVec 2) (acq : Bool) (rel : Bool) (u : Bool)
  /-- AMAX (R119) -/
  | amax (xd : BitVec 6) (xa : BitVec 6) (xb : BitVec 6) (size : BitVec 2) (scope : BitVec 2) (acq : Bool) (rel : Bool) (u : Bool)
  /-- AAND (R119) -/
  | aand (xd : BitVec 6) (xa : BitVec 6) (xb : BitVec 6) (size : BitVec 2) (scope : BitVec 2) (acq : Bool) (rel : Bool)
  /-- AOR (R119) -/
  | aor (xd : BitVec 6) (xa : BitVec 6) (xb : BitVec 6) (size : BitVec 2) (scope : BitVec 2) (acq : Bool) (rel : Bool)
  /-- AXOR (R119) -/
  | axor (xd : BitVec 6) (xa : BitVec 6) (xb : BitVec 6) (size : BitVec 2) (scope : BitVec 2) (acq : Bool) (rel : Bool)
  /-- ASWP (R119) -/
  | aswp (xd : BitVec 6) (xa : BitVec 6) (xb : BitVec 6) (size : BitVec 2) (scope : BitVec 2) (acq : Bool) (rel : Bool)
  /-- ACAS (R119) -/
  | acas (xd : BitVec 6) (xa : BitVec 6) (xb : BitVec 6) (xc : BitVec 6) (size : BitVec 2) (scope : BitVec 2) (acq : Bool) (rel : Bool)
  /-- RED (R122) -/
  | red (xa : BitVec 6) (xb : BitVec 6) (scope : BitVec 2) (op : BitVec 2) (type : BitVec 2)
  /-- TLD (R132) -/
  | tld (td : BitVec 5) (shape : BitVec 3) (fmt : BitVec 5) (xbase : BitVec 6) (xstride : BitVec 6) (xbound : BitVec 6) (quant : BitVec 4) (imm : BitVec 32)
  /-- TST (R147) -/
  | tst (ts : BitVec 5) (shape : BitVec 3) (fmt : BitVec 5) (xbase : BitVec 6) (xstride : BitVec 6) (xbound : BitVec 6) (imm : BitVec 32)
  /-- TLDX (R134) -/
  | tldx (td : BitVec 5) (shape : BitVec 3) (fmt : BitVec 5) (xbase : BitVec 6) (xpb : BitVec 6) (ti : BitVec 6) (quant : BitVec 4) (imm : BitVec 32)
  /-- TSTX (R134) -/
  | tstx (ts : BitVec 5) (shape : BitVec 3) (fmt : BitVec 5) (xbase : BitVec 6) (xpb : BitVec 6) (ti : BitVec 6) (imm : BitVec 32)
  /-- TZERO (R137) -/
  | tzero (td : BitVec 5) (shape : BitVec 3) (fmt : BitVec 5) (quant : BitVec 4)
  /-- TFILL (R137) -/
  | tfill (td : BitVec 5) (shape : BitVec 3) (fmt : BitVec 5) (quant : BitVec 4) (xs : BitVec 6)
  /-- TMOV (R137) -/
  | tmov (td : BitVec 5) (ta : BitVec 5)
  /-- TMOVX (R138) -/
  | tmovx (ta : BitVec 5) (xs : BitVec 6) (imm : BitVec 32)
  /-- TMOVS (R142) -/
  | tmovs (td : BitVec 5) (ta : BitVec 5) (xs : BitVec 6) (imm : BitVec 32)
  /-- TSHR (R141) -/
  | tshr (ta : BitVec 5) (xs : BitVec 6)
  /-- TRESHAPE (R140) -/
  | treshape (td : BitVec 5) (ta : BitVec 5) (shape : BitVec 3) (fmt : BitVec 5) (quant : BitVec 4)
  /-- MPIN (R161) -/
  | mpin (pin : BitVec 2) (ta : BitVec 5) (tb : BitVec 5)
  /-- MMA (R162) -/
  | mma (acc : BitVec 3) (pin : BitVec 2) (ta : BitVec 5) (tb : BitVec 5) (z : Bool)
  /-- MMAT (R163) -/
  | mmat (acc : BitVec 3) (pin : BitVec 2) (ta : BitVec 5) (z : Bool) (half : Bool)
  /-- MOPA (R164) -/
  | mopa (acc : BitVec 3) (ta : BitVec 5) (tb : BitVec 5) (z : Bool) (half : Bool)
  /-- MDRAIN (R165) -/
  | mdrain (td : BitVec 5) (acc : BitVec 3) (shape : BitVec 3) (fmt : BitVec 5) (quant : BitVec 4) (imm : BitVec 32) (rnd : BitVec 2) (inf : Bool) (amax : Bool)
  /-- MACCLD (R166) -/
  | maccld (acc : BitVec 3) (ta : BitVec 5) (imm : BitVec 32) (z : Bool)
  /-- WDRAIN (R167) -/
  | wdrain (td : BitVec 5) (pin : BitVec 2) (sel : BitVec 4)
  /-- MZERO (R168) -/
  | mzero (acc : BitVec 3)
  /-- VADD (R182) -/
  | vadd (td : BitVec 5) (ta : BitVec 5) (tb : BitVec 5) (xs : BitVec 6) (form : BitVec 3) (rnd : BitVec 2) (inf : Bool)
  /-- VSUB (R182) -/
  | vsub (td : BitVec 5) (ta : BitVec 5) (tb : BitVec 5) (xs : BitVec 6) (form : BitVec 3) (rnd : BitVec 2) (inf : Bool)
  /-- VMUL (R182) -/
  | vmul (td : BitVec 5) (ta : BitVec 5) (tb : BitVec 5) (xs : BitVec 6) (form : BitVec 3) (rnd : BitVec 2) (inf : Bool)
  /-- VFMA (R182) -/
  | vfma (td : BitVec 5) (ta : BitVec 5) (tb : BitVec 5) (xs : BitVec 6) (form : BitVec 3) (tc : BitVec 5) (rnd : BitVec 2) (inf : Bool)
  /-- VMIN (R182) -/
  | vmin (td : BitVec 5) (ta : BitVec 5) (tb : BitVec 5) (xs : BitVec 6) (form : BitVec 3)
  /-- VMAX (R182) -/
  | vmax (td : BitVec 5) (ta : BitVec 5) (tb : BitVec 5) (xs : BitVec 6) (form : BitVec 3)
  /-- VAND (R182) -/
  | vand (td : BitVec 5) (ta : BitVec 5) (tb : BitVec 5) (xs : BitVec 6) (form : BitVec 3)
  /-- VOR (R182) -/
  | vor (td : BitVec 5) (ta : BitVec 5) (tb : BitVec 5) (xs : BitVec 6) (form : BitVec 3)
  /-- VXOR (R182) -/
  | vxor (td : BitVec 5) (ta : BitVec 5) (tb : BitVec 5) (xs : BitVec 6) (form : BitVec 3)
  /-- VSHL (R183) -/
  | vshl (td : BitVec 5) (ta : BitVec 5) (tb : BitVec 5) (xs : BitVec 6) (form : BitVec 3)
  /-- VSHR (R183) -/
  | vshr (td : BitVec 5) (ta : BitVec 5) (tb : BitVec 5) (xs : BitVec 6) (form : BitVec 3) (sel : BitVec 4)
  /-- VCMP (R184) -/
  | vcmp (td : BitVec 5) (ta : BitVec 5) (tb : BitVec 5) (xs : BitVec 6) (form : BitVec 3) (shape : BitVec 3) (fmt : BitVec 5) (sel : BitVec 4)
  /-- VSEL (R185) -/
  | vsel (td : BitVec 5) (ta : BitVec 5) (tb : BitVec 5) (xs : BitVec 6) (form : BitVec 3) (tc : BitVec 5)
  /-- VABS (R183) -/
  | vabs (td : BitVec 5) (ta : BitVec 5)
  /-- VNEG (R183) -/
  | vneg (td : BitVec 5) (ta : BitVec 5)
  /-- VDIV (R182) -/
  | vdiv (td : BitVec 5) (ta : BitVec 5) (tb : BitVec 5) (xs : BitVec 6) (form : BitVec 3) (rnd : BitVec 2) (inf : Bool)
  /-- VCVT (R186) -/
  | vcvt (td : BitVec 5) (ta : BitVec 5) (tb : BitVec 5) (tc : BitVec 5) (shape : BitVec 3) (fmt : BitVec 5) (quant : BitVec 4) (rnd : BitVec 2) (inf : Bool) (amax : Bool)
  /-- VEXP2 (R188) -/
  | vexp2 (td : BitVec 5) (ta : BitVec 5)
  /-- VLOG2 (R188) -/
  | vlog2 (td : BitVec 5) (ta : BitVec 5)
  /-- VRCP (R188) -/
  | vrcp (td : BitVec 5) (ta : BitVec 5) (rnd : BitVec 2) (inf : Bool)
  /-- VRSQ (R188) -/
  | vrsq (td : BitVec 5) (ta : BitVec 5)
  /-- VSQRT (R188) -/
  | vsqrt (td : BitVec 5) (ta : BitVec 5) (rnd : BitVec 2) (inf : Bool)
  /-- VTANH (R188) -/
  | vtanh (td : BitVec 5) (ta : BitVec 5)
  /-- VSIGM (R188) -/
  | vsigm (td : BitVec 5) (ta : BitVec 5)
  /-- VGELU (R188) -/
  | vgelu (td : BitVec 5) (ta : BitVec 5)
  /-- VAMAX (R190) -/
  | vamax (ta : BitVec 5) (tb : BitVec 5) (quant : BitVec 4)
  /-- VRAND (R191) -/
  | vrand (td : BitVec 5) (shape : BitVec 3) (fmt : BitVec 5) (quant : BitVec 4)
  /-- VIOTA (R192) -/
  | viota (td : BitVec 5) (shape : BitVec 3) (fmt : BitVec 5) (quant : BitVec 4) (xs : BitVec 6) (imm : BitVec 32)
  /-- VCLAMP (R193) -/
  | vclamp (td : BitVec 5) (ta : BitVec 5) (tb : BitVec 5) (tc : BitVec 5) (xs : BitVec 6) (imm : BitVec 32) (form : BitVec 3)
  /-- VRSUM (R195) -/
  | vrsum (td : BitVec 5) (ta : BitVec 5) (shape : BitVec 3) (fmt : BitVec 5) (rnd : BitVec 2) (inf : Bool)
  /-- VRMAX (R195) -/
  | vrmax (td : BitVec 5) (ta : BitVec 5) (shape : BitVec 3) (fmt : BitVec 5)
  /-- VRMIN (R195) -/
  | vrmin (td : BitVec 5) (ta : BitVec 5) (shape : BitVec 3) (fmt : BitVec 5)
  /-- VCSUM (R195) -/
  | vcsum (td : BitVec 5) (ta : BitVec 5) (shape : BitVec 3) (fmt : BitVec 5) (rnd : BitVec 2) (inf : Bool)
  /-- VCMAX (R195) -/
  | vcmax (td : BitVec 5) (ta : BitVec 5) (shape : BitVec 3) (fmt : BitVec 5)
  /-- VCMIN (R195) -/
  | vcmin (td : BitVec 5) (ta : BitVec 5) (shape : BitVec 3) (fmt : BitVec 5)
  /-- VTRANS (R196) -/
  | vtrans (td : BitVec 5) (ta : BitVec 5)
  /-- VBCAST (R197) -/
  | vbcast (td : BitVec 5) (ta : BitVec 5) (shape : BitVec 3) (imm : BitVec 32) (sel : BitVec 4)
  /-- VSHUF (R198) -/
  | vshuf (td : BitVec 5) (ta : BitVec 5) (tb : BitVec 5) (form : BitVec 3)
  /-- VSCAN (R199) -/
  | vscan (td : BitVec 5) (ta : BitVec 5) (sel : BitVec 4) (rnd : BitVec 2) (inf : Bool)
  /-- VRDOT (R200) -/
  | vrdot (td : BitVec 5) (ta : BitVec 5) (tb : BitVec 5) (shape : BitVec 3) (fmt : BitVec 5) (rnd : BitVec 2) (inf : Bool) (form : BitVec 3)
  /-- SKINIT (R211) -/
  | skinit (xa : BitVec 6) (xb : BitVec 6) (xc : BitVec 6) (depth : BitVec 3) (lgw : BitVec 5) (scale : BitVec 8) (seedset : BitVec 2)
  /-- SKZERO (R211) -/
  | skzero (xa : BitVec 6)
  /-- SKUPD (R213) -/
  | skupd (xa : BitVec 6) (ta : BitVec 5) (xb : BitVec 6) (tk : BitVec 5) (sel : BitVec 4)
  /-- SKQRY (R214) -/
  | skqry (td : BitVec 5) (xa : BitVec 6) (xb : BitVec 6) (tk : BitVec 5) (sel : BitVec 4) (shape : BitVec 3)
  /-- SKADD (R215) -/
  | skadd (xa : BitVec 6) (xb : BitVec 6)
  /-- SKMUL (R216) -/
  | skmul (xa : BitVec 6) (xb : BitVec 6)
  /-- SKFENCE (R218) -/
  | skfence
  /-- SKSTAT (R217) -/
  | skstat (xd : BitVec 6) (xa : BitVec 6) (sel : BitVec 4)
  /-- GQPUSH (R246) -/
  | gqpush (xa : BitVec 6) (ta : BitVec 5) (index : BitVec 8) (imm : BitVec 32) (rel : Bool) (scope : BitVec 2)
  /-- GQPOP (R248) -/
  | gqpop (xd : BitVec 6) (td : BitVec 5) (index : BitVec 8) (imm : BitVec 32) (acq : Bool) (scope : BitVec 2)
  /-- GQPOPS (R249) -/
  | gqpops (xd : BitVec 6) (td : BitVec 5) (index : BitVec 8) (acq : Bool) (scope : BitVec 2)
  /-- GQSTAT (R250) -/
  | gqstat (xd : BitVec 6) (index : BitVec 8) (imm : BitVec 32) (sel : BitVec 4)
  /-- MSGSEND (R252) -/
  | msgsend (xa : BitVec 6) (xb : BitVec 6) (ta : BitVec 5) (rel : Bool) (scope : BitVec 2)
  /-- MSGWAIT (R254) -/
  | msgwait (xd : BitVec 6)
  /-- MSGRECV (R254) -/
  | msgrecv (xd : BitVec 6) (td : BitVec 5) (acq : Bool) (scope : BitVec 2)
  /-- CPYGO (R234) -/
  | cpygo (xd : BitVec 6) (index : BitVec 8)
  /-- CPYWAIT (R239) -/
  | cpywait (xd : BitVec 6) (xa : BitVec 6) (xb : BitVec 6)
  /-- CPYSTAT (R241) -/
  | cpystat (xd : BitVec 6) (index : BitVec 8)
  /-- CPYCANCEL (R242) -/
  | cpycancel (xd : BitVec 6) (index : BitVec 8)
  /-- LKRED (R255) -/
  | lkred (xd : BitVec 6) (xa : BitVec 6) (xb : BitVec 6) (index : BitVec 8)
  /-- LKSKADD (R255) -/
  | lkskadd (xd : BitVec 6) (xa : BitVec 6) (index : BitVec 8)
  /-- LKWAIT (R257) -/
  | lkwait (xd : BitVec 6) (xa : BitVec 6) (xb : BitVec 6)
  /-- LKSTAT (R257) -/
  | lkstat (xd : BitVec 6) (xa : BitVec 6)
  /-- SYARR (R271) -/
  | syarr (xd : BitVec 6) (index : BitVec 8) (rel : Bool)
  /-- SYWAIT (R271) -/
  | sywait (xd : BitVec 6) (xa : BitVec 6) (index : BitVec 8) (acq : Bool)
  /-- SYBAR (R271) -/
  | sybar (xd : BitVec 6) (index : BitVec 8) (rel : Bool) (acq : Bool)
  /-- SYBC (R273) -/
  | sybc (xd : BitVec 6) (xa : BitVec 6) (xc : BitVec 6) (index : BitVec 8) (sel : BitVec 4) (rel : Bool) (acq : Bool)
  /-- SYRED (R272) -/
  | syred (xd : BitVec 6) (xa : BitVec 6) (xc : BitVec 6) (index : BitVec 8) (sel : BitVec 4) (u : Bool) (rel : Bool) (acq : Bool)
  /-- SYGEN (R271) -/
  | sygen (xd : BitVec 6) (index : BitVec 8)
  /-- RZINIT (R277) -/
  | rzinit (xa : BitVec 6) (xb : BitVec 6)
  /-- RZARR (R277) -/
  | rzarr (xa : BitVec 6) (rel : Bool) (scope : BitVec 2)
  /-- RZWAIT (R277) -/
  | rzwait (xd : BitVec 6) (xa : BitVec 6) (xb : BitVec 6) (acq : Bool) (scope : BitVec 2)
  /-- ACQ (R295) -/
  | acq (scope : BitVec 2)
  /-- REL (R295) -/
  | rel (scope : BitVec 2)
  /-- FENCE (R296) -/
  | fence
  /-- QFENCE (R297) -/
  | qfence (imm : BitVec 32)
  /-- HINT (R71) -/
  | hint (k : BitVec 8) (payload : BitVec 88)
  /-- event LINE_FETCH (R342) -/
  | lineFetch
  /-- event ENGINE_ISSUE (R350) -/
  | engineIssue
  /-- event RETIRE (R353) -/
  | retire
  /-- event STORE_DRAIN_WRITE (R147) -/
  | storeDrainWrite
  /-- event PRECISE_FAULT_ENTRY (R356) -/
  | preciseFaultEntry (cls detail : Nat) (faddr finfo : BitVec 64)
  /-- event AFTER_RETIRE_ENTRY (R311) -/
  | afterRetireEntry (cls detail : Nat) (faddr finfo : BitVec 64)
  /-- event ASYNCHRONOUS_ENTRY (R316) -/
  | asynchronousEntry
  /-- event DEFERRED_REPORT_ARRIVAL (R335) -/
  | deferredReportArrival (index : Nat)
  /-- event PRE_EMPTION_SIGNAL (R327) -/
  | preEmptionSignal
  /-- event RESUMPTION_ENTRY (R328) -/
  | resumptionEntry (launch : BitVec 16) (strand : Nat)
  /-- event MACHINE_CHECK (R330) -/
  | machineCheck (detail : Nat) (number : Nat) (addr : Nat)
  /-- event CORRECTED_ERROR (R444) -/
  | correctedError (kind : Nat) (unit : Nat) (set : Nat)
  /-- event HBM_CHANNEL_SPARING (R445) -/
  | hbmChannelSparing (channel : Nat)
  /-- event SCRUB (R444) -/
  | scrub
  /-- event SLEEP_WAKE (R321) -/
  | sleepWake
  /-- event SYNC_WAIT_TIMEOUT (R270) -/
  | syncWaitTimeout
  /-- event COPY_DEADLINE_LATE (R239) -/
  | copyDeadlineLate
  /-- event COLLECTIVE_DEADLINE_LATE (R257) -/
  | collectiveDeadlineLate
  /-- event ROUND_COMPLETE (R264) -/
  | roundComplete (segment : Nat)
  /-- event APERTURE_ACCESS_PERFORM (R305) -/
  | apertureAccessPerform
  /-- event COPY_TRANSFER_BEGIN (R237) -/
  | copyTransferBegin (channel : Nat)
  /-- event COPY_BEAT (R236) -/
  | copyBeat
  /-- event TRANSFER_COMPLETE (R236) -/
  | transferComplete (channel : Nat)
  /-- event TRANSFER_ERROR (R240) -/
  | transferError (channel : Nat)
  /-- event POST_QUEUE_SEND (R124) -/
  | postQueueSend
  /-- event RED_PERFORM (R122): a post on its way, and a line with uncorrectable data, if there is one -/
  | redPerform (post : Nat × Option Nat)
  /-- event SKETCH_OPERATION_BEGIN (R230): as above -/
  | sketchOperationBegin (post : Nat × Option Nat)
  /-- event COUNTER_APPLY (R230) -/
  | counterApply (job : Nat) (controller : Nat)
  /-- event SKETCH_ACKNOWLEDGE (R230) -/
  | sketchAcknowledge (job : Nat)
  /-- event GRADIENT_ENTRY_ARRIVAL (R247) -/
  | gradientEntryArrival (index : Nat)
  /-- event WINDOW_COUNT_RETURN (R248) -/
  | windowCountReturn (index : Nat)
  /-- event MESSAGE_ARRIVAL (R253) -/
  | messageArrival (index : Nat)
  /-- event UNDELIVERABLE_ACCEPT (R419) -/
  | undeliverableAccept (index : Nat)
  /-- event COLLECTIVE_PAIRING (R256) -/
  | collectivePairing (index : Nat)
  /-- event COLLECTIVE_COMPLETE (R256) -/
  | collectiveComplete (index : Nat)
  /-- event SIDE_LOG_DOORBELL (R337) -/
  | sideLogDoorbell (controller : Nat × Option Nat) (colour : Nat)
  /-- event SIDE_LOG_DISCARD (R338) -/
  | sideLogDiscard (controller : Nat) (colour : Nat) (seq : Nat)
  /-- event PERMISSION_TLB_MISS (R379) -/
  | permissionTlbMiss (va : Nat)
  /-- event MEMORY_SIDE_WALK (R384) -/
  | memorySideWalk (asid : Nat) (colour : Nat) (va : Nat)
  /-- event WINDOW_GRANULE_FILL (R304) -/
  | windowGranuleFill (va : Nat)
  /-- event CLUSTER_CACHE_FILL (R371) -/
  | clusterCacheFill (va : Nat)
  /-- event CLUSTER_CACHE_VICTIM (R375) -/
  | clusterCacheVictim (cluster : Nat) (line : Nat)
  /-- event L2_VICTIM (R375) -/
  | l2Victim (line : Nat)
  /-- event VERSION_WRAP_SWEEP (R372) -/
  | versionWrapSweep (scope : Nat)
  /-- event ROUTER_COMBINE (R429) -/
  | routerCombine (router : Nat) (va : Nat)
  /-- event HOST_POSTED_WRITE (R432) -/
  | hostPostedWrite (fn : Nat) (off : Nat) (bytes : List Byte) (relaxed : Bool) (accept : Option Nat)
  /-- event HOST_READ_REQUEST (R432): of a BAR and an offset in it -/
  | hostReadRequest (fn : Nat) (place : Nat × Nat) (n : Nat)
  /-- event CXL_MEM_REQUEST (R434) -/
  | cxlMemRequest (off : Nat) (bytes : List Byte)
  /-- event BISNP_RESPONSE (R434) -/
  | bisnpResponse (line : Nat)
  /-- event HOST_SNOOP (R433) -/
  | hostSnoop (addr : Nat)
  /-- event COMMAND_DOORBELL (R436) -/
  | commandDoorbell (fn : Nat) (cprod : BitVec 32)
  /-- event COMMAND_REGISTER_WRITE (R435) -/
  | commandRegisterWrite (fn : Nat) (off : Nat) (value : Word)
  /-- event LAUNCH (R398) -/
  | launch (fn : Nat)
  /-- event CANCEL (R417) -/
  | cancel (fn : Nat)
  /-- event MAP (R468) -/
  | mapPages (fn : Nat)
  /-- event UNMAP (R386) -/
  | unmapPages (fn : Nat)
  /-- event REMAP (R386) -/
  | remapPages (fn : Nat)
  /-- event MIGRATE (R387) -/
  | migrate (fn : Nat)
  /-- event PARTITION (R437) -/
  | partition (fn : Nat)
  /-- event RESTITCH (R430) -/
  | restitch (fn : Nat)
  /-- event RESTITCH_COMPLETE (R430) -/
  | restitchComplete (region : Nat)
  /-- event RETIRE_CORE (R445) -/
  | retireCore (fn : Nat)
  /-- event PRE_EMPT (R420) -/
  | preEmpt (fn : Nat)
  /-- event RESUME (R425) -/
  | resumePartition (fn : Nat)
  /-- event SIGNAL (R437) -/
  | signalToken (fn : Nat)
  /-- event SET_TOKEN (R437) -/
  | setToken (fn : Nat)
  /-- event WAIT (R395) -/
  | waitToken (fn : Nat)
  /-- event WAIT_MET (R395) -/
  | waitMet (fn : Nat)
  /-- event QUERY_COUNTERS (R449) -/
  | queryCounters (fn : Nat)
  /-- event UPDATE_FIRMWARE (R446) -/
  | updateFirmware (fn : Nat)
  /-- event ATTEST (R447) -/
  | attest (fn : Nat)
  /-- event BIND_BRIDGE (R437) -/
  | bindBridge (fn : Nat)
  /-- event SET_PATIENCE (R422) -/
  | setPatience (fn : Nat)
  /-- event GET_VERSION (R447) -/
  | getVersion
  /-- event GET_CAPABILITIES (R447) -/
  | getCapabilities
  /-- event NEGOTIATE_ALGORITHMS (R447) -/
  | negotiateAlgorithms
  /-- event GET_DIGESTS (R447) -/
  | getDigests
  /-- event GET_CERTIFICATE (R447) -/
  | getCertificate (off : Nat) (len : Nat)
  /-- event CHALLENGE (R447) -/
  | challenge (nonce : List Byte)
  /-- event GET_MEASUREMENTS (R447) -/
  | getMeasurements
  /-- event DISPATCHER_ROUND (R404) -/
  | dispatcherRound (colour : Nat)
  /-- event STRAND_START (R406) -/
  | strandStart (launch : BitVec 16) (sheaf : Nat)
  /-- event PATIENCE_EXPIRY (R413) -/
  | patienceExpiry (launch : BitVec 16)
  /-- event RESERVATION_EXPIRY (R414) -/
  | reservationExpiry (launch : BitVec 16)
  /-- event PEER_RESERVATION_REPORT (R412) -/
  | peerReservationReport (launch : BitVec 16)
  /-- event STRAND_END_REPORT (R409) -/
  | strandEndReport
  /-- event LAUNCH_END (R409) -/
  | launchEnd (launch : BitVec 16)
  /-- event COMPLETION_RECORD_WRITE (R416) -/
  | completionRecordWrite (launch : BitVec 16)
  /-- event COLOUR_DRAIN_COMPLETE (R421) -/
  | colourDrainComplete (colour : Nat)
  /-- event PRE_EMPTION_PATIENCE_EXPIRY (R422) -/
  | preEmptionPatienceExpiry (colour : Nat)
  /-- event FLIT_RECEIVE (R439) -/
  | flitReceive (port : Nat × Bool) (bytes : List Byte)
  /-- event ACK_RECEIVE (R440) -/
  | ackReceive (port : Nat) (seq : Nat)
  /-- event NAK_RECEIVE (R440) -/
  | nakReceive (port : Nat) (seq : Nat)
  /-- event PORT_FAILURE (R442) -/
  | portFailure (port : Nat)
  /-- event PORT_DEGRADE (R442) -/
  | portDegrade (port : Nat)
  /-- event BRIDGE_TRAINING (R442) -/
  | bridgeTraining
  /-- event BRIDGE_READ (R441): at a port, and whether the data is uncorrectable -/
  | bridgeRead (read : Nat × Bool)
  /-- event BRIDGE_WRITE (R441) -/
  | bridgeWrite (port : Nat)
  /-- event BRIDGE_ATOMIC (R441): as above -/
  | bridgeAtomic (read : Nat × Bool)
  /-- event BRIDGE_MESSAGE (R441) -/
  | bridgeMessage (port : Nat)
  /-- event BRIDGE_COLLECTIVE (R441) -/
  | bridgeCollective (port : Nat)
  /-- event BRIDGE_COMPLETION (R443) -/
  | bridgeCompletion (port : Nat)
  /-- event BRIDGE_ACKNOWLEDGEMENT (R441): at a port, for a core's store -/
  | bridgeAcknowledgement (answer : Nat × Nat)
  /-- event POWER_SAMPLE (R448) -/
  | powerSample (watts : Nat)
  /-- event CLUSTER_GATE (R448) -/
  | clusterGate (cluster : Nat)
  /-- event IDLE_TIMEOUT (R448) -/
  | idleTimeout
  /-- event WAKE (R448) -/
  | wake
  /-- event D3HOT (R448) -/
  | d3hot
  /-- event PACKAGE_RESET (R6) -/
  | packageReset
  /-- event CORE_RESET (R23) -/
  | coreReset (core : Nat)
  /-- event VALUE_RETURN (R347) -/
  | valueReturn
  /-- event INSTRUCTION_COMPLETE (R351) -/
  | instructionComplete
  /-- event CXL_CACHE_RESPONSE (R308) -/
  | cxlCacheResponse (core : Nat)
  /-- event PORT_RETRAIN_COMPLETE (R442) -/
  | portRetrainComplete (port : Nat)
  /-- event WINDOW_BASE_WRITE (R431) -/
  | windowBaseWrite (value : Word)
deriving DecidableEq, Repr

end Sys2Proof
end

