-- ==== Sys2Proof/Machine/State.lean ====
section
/-! DEFINITION. The state of the machine as plain data. -/

namespace Sys2Proof.Machine

/-- A tile with its shape record (R20, R126); `data` holds one list of bytes for each row. -/
structure Tile where
  rows : Nat
  rowbytes : Nat
  fmt : BitVec 5
  quant : BitVec 4
  data : List (List Byte)
deriving DecidableEq, Repr

def Tile.empty : Tile := ⟨0, 0, 0#5, 0#4, []⟩

/-- An accumulator: 64 rows of 64 FA48 elements (R19, R154). -/
abbrev Acc := List (List (BitVec 48))

def Acc.zero : Acc := List.replicate 64 (List.replicate 64 0#48)

/-- A weight pin: its record and bytes, and the companion tile of an E2M1 pin (R154, R161). -/
structure Pin where
  tile : Tile
  scales : Tile
deriving DecidableEq, Repr

inductive CoreKind where
  | compute
  | badger
  | command
deriving DecidableEq, Repr

/-- The declared resources of the running launch (R90). -/
structure Limits where
  tiles : Nat
  acc : Nat
  pins : Nat
  copy : Nat
  stash : Nat
deriving DecidableEq, Repr

/-- Bytes by address: addresses strictly rising, and in a memory with a default no entry equal to it (`Memory.wf`). -/
abbrev Memory := List Host.Cell

/-- What an exception records (R313). -/
structure Exc where
  cls : Nat
  detail : Nat
  faddr : Word
  finfo : Word
deriving DecidableEq, Repr

/-- Where a page's bytes have their home (R360): local HBM, the peer's HBM, host memory. -/
inductive Target where
  | local (pa : Nat)
  | peer
  | host (addr : Nat)
deriving DecidableEq, Repr

/-- A present translation (R383-R385): the physical address of the byte asked for, its permissions, the page size as a power of two. -/
structure Leaf where
  target : Target
  r : Bool
  w : Bool
  x : Bool
  sup : Bool
  mig : Bool
  lg : Nat
deriving DecidableEq, Repr

/-- An entry of a permission TLB (R379). -/
structure TlbEntry where
  asid : Nat
  colour : Nat
  page : Nat
  lg : Nat
  r : Bool
  w : Bool
  x : Bool
  sup : Bool
deriving DecidableEq, Repr

/-- An entry of a memory-side TLB (R380). -/
structure UnitTlbEntry where
  unit : Nat
  asid : Nat
  colour : Nat
  page : Nat
  leaf : Leaf
deriving DecidableEq, Repr

/-- An entry of a walker's cache: a non-leaf entry at a physical address (R380). -/
structure WalkEntry where
  unit : Nat
  addr : Nat
  entry : Word
deriving DecidableEq, Repr

/-- A stash window: its ASID and virtual base, its stash offset, its size as a power of two (R304, R363). -/
structure Window where
  asid : Nat
  va : Nat
  off : Nat
  lg : Nat
deriving DecidableEq, Repr

/-- The sheaf aperture: its base and the core of each member (R305). -/
structure Aperture where
  base : Nat
  members : List Nat
deriving DecidableEq, Repr

/-- The state of a stash granule (R368); `cluster` is the stale scope CLUSTER. -/
structure Granule where
  fill : Bool
  cluster : Bool
  ver : BitVec 8
  dmask : BitVec 128
deriving DecidableEq, Repr

/-- A stash (R359): its bytes, the state of granules that a window has touched, the CLUSTER version, the changed-granule map. -/
structure Stash where
  bytes : Memory
  granules : List (Nat × Granule)
  ver : BitVec 8
  changed : BitVec 2048
  windows : Vector (Option Window) 8
  aperture : Option Aperture
deriving DecidableEq, Repr

/-- One write of the store drain: the tagged address (ASID·2^52 + VA), the bytes, the home that the checks found (R147). -/
structure DrainWrite where
  tag : Nat
  target : Target
  bytes : List Byte
deriving DecidableEq, Repr

/-- An entry of the store drain: the rows of a TST or TSTX, or one scalar store (R147), with the range of its instruction (R143), the
scope of an STL (R118), and the writes that have not performed. -/
structure DrainEntry where
  tile : Bool
  lo : Nat
  hi : Nat
  scope : Option Nat
  writes : List DrainWrite
deriving DecidableEq, Repr

/-- A line of the instruction cache, with its 64 bytes (R340). -/
structure CodeLine where
  tag : Nat
  bytes : List Byte
deriving DecidableEq, Repr

/-- What a post does at its target: RED (R122), the sketch posts (R211-R216), a gradient push (R246), a message (R252). -/
inductive PostKind where
  | red (op type : Nat)
  | skInit (base klimit : Word) (geom : BitVec 32)
  | skZero
  | skUpd (keyed : Bool) (keyBase : Word)
  | skAdd (source : Nat)
  | skMul (factor : BitVec 32)
  | push (queue lane : Nat)
  | message (target : Word)
deriving DecidableEq, Repr

/-- A post with what it carries (R123, R219, R246, R252): its sender, its address operand, its scalar operand, its tiles; and, once it has been
sent, the number of its packet, in which packets leave on a card (R427). -/
structure Post where
  kind : PostKind
  opcode : BitVec 8
  mod : BitVec 19
  core : Nat
  strand : Word
  asid : Nat
  colour : Nat
  sup : Bool
  scope : Nat
  addr : Nat
  oper : Word
  values : Tile
  keys : Tile
  number : Nat
deriving DecidableEq, Repr

/-- A transfer of a copy channel (R234, R236): its snapshot, whether it has begun, the bytes performed, its watermark, and the clock at
which its promise expires, the mode and the ASID of its CPYGO. -/
structure Transfer where
  seq : Nat
  src : Nat
  dst : Nat
  rows : Nat
  rowbytes : Nat
  sstride : Int
  dstride : Int
  scope : Nat
  rzen : Bool
  rz : Nat
  begun : Bool
  moved : Nat
  promised : Word
  sup : Bool
  asid : Nat
deriving DecidableEq, Repr

/-- A copy channel (R233-R242): shadows, the watermark, what it returns to when a transfer fails (the hi of the last completed one), queue,
the seq of the next CPYGO, the error record, the cancel record (first seq, count). -/
structure CopyChannel where
  src : Word
  dst : Word
  rows : Word
  rowbytes : Word
  sstride : Word
  dstride : Word
  flags : Word
  rz : Word
  wm : Word
  completed : Word
  queue : List Transfer
  nextSeq : Nat
  error : Option Nat
  cancelled : Option (Nat × Nat)
deriving DecidableEq, Repr

/-- A window count that a sending core keeps (R246). -/
structure WindowCount where
  queue : Nat
  lane : Nat
  count : Nat
deriving DecidableEq, Repr

/-- A message (R252): sender, target, handler address, 48 bytes of payload. -/
structure Message where
  sender : Word
  target : Word
  handler : Word
  payload : List Byte
deriving DecidableEq, Repr

/-- The held result of a round (R264, R265). -/
structure SyResult where
  round : BitVec 16
  bcast : Word
  red : Word
deriving DecidableEq, Repr

/-- An arrival that SYBAR, SYBC or SYRED has made and whose round it still waits for (R268, R275): the PC (none between a resumption and the
ERET that gives it), the channel and target, whether the instruction takes the reduction, and the round's held result once PREACK has
taken it from the segment. -/
structure HeldArrival where
  pc : Option Word
  chan : Nat
  target : BitVec 16
  reduces : Bool
  result : Option Word
deriving DecidableEq, Repr

/-- What the oldest instruction waits for: every older RED, every older sketch post (R316, R336), the sketch posts of one record (R221), the
value of an atomic that has been sent (R120), the end of the strand at a HALT (R421); and the REDs that have held a load, each with its
range and its scope (R124). -/
structure Wait where
  reds : Bool
  sketches : Bool
  record : Option Nat
  sent : Bool
  halt : Bool
  behind : List ((Nat × Nat) × Nat)
deriving DecidableEq, Repr

/-- Whether a core runs a strand (R11, R13, R320, R325): free, running, ended with the end not yet reported, stopped by PREACK. -/
inductive RunState where
  | idle
  | running
  | ended
  | stopped
deriving DecidableEq, Repr

/-- A younger instruction that has issued before an older one has retired (R347, R350, R354): how many instructions retire before it; whether
it is done but for its retire, or has only made its acquire (R248); the scope of an acquire that it has still to make (R117); and what it
writes: scalar registers, and tiles. -/
structure Early where
  after : Nat
  done : Bool
  acq : Option Nat
  xs : List (BitVec 6 × Word)
  ts : List (BitVec 5 × Tile)
deriving DecidableEq, Repr

/-- Whether a strand is parked (R32): not, since the pre-emption signal until its PREACK, since its resumption until ERET. -/
inductive Parking where
  | free
  | preempting
  | resuming
deriving DecidableEq, Repr

/-- A core with its strand: its number and kind, the run state and the declared limits, the register files (R19-R25), the stash, the
store drain and whether its oldest write is under way to its home or to another stash (R293, R305), the permission TLB, the instruction
cache (each set's most recent line first) and the line buffer (newest first) (R340), the bytes that code lines hold beneath the core's own
stores since the latest IFENCE (R298), the post queue, the copy engine, the link engine's counters, the window counts, the inbox, the held
Owlwire arrivals, the wait in progress (the clock at which it began, and what it waits for), the pending causes (R316) and the vectors of the
default handler table that the strand has entered and not left, newest first (R471), and the younger instructions that have issued (R350).
An idle core keeps what its last strand left. -/
structure Core where
  num : Nat
  kind : CoreKind
  run : RunState
  limits : Limits
  pc : Word
  x : Vector Word 64
  t : Vector Tile 32
  a : Vector Acc 8
  w : Vector Pin 4
  h : Vector Word 8
  q : Vector Word 16
  cycle : Word
  strand : Word
  lvl : Vector Word 8
  ps : Word
  seed : Word
  serial : BitVec 44
  tvec : Word
  epc : Word
  cause : Word
  faddr : Word
  finfo : Word
  sytmo : Word
  asid : BitVec 12
  colour : BitVec 4
  dirtyT : BitVec 32
  dirtyA : BitVec 8
  dirtyW : BitVec 4
  scr : Vector Word 4
  stash : Stash
  drain : List DrainEntry
  sent : Bool
  tlb : List TlbEntry
  icache : List CodeLine
  lineBuffer : List CodeLine
  codeView : Memory
  posts : List Post
  copies : Vector CopyChannel 8
  copyTurn : Nat
  linkSeq : Nat
  windowCounts : List WindowCount
  inbox : List Message
  unaccepted : Nat
  held : List HeldArrival
  waitFrom : Option Word
  waiting : Option Wait
  parked : Parking
  reports : List Exc
  preempt : Option Exc
  machineChecks : List Exc
  imageAddr : Option Word
  dfltTable : Bool
  fw : List Exc
  early : List Early
  passed : List Nat
deriving DecidableEq, Repr

/-- The stale scope of a cluster-cache line (R368). -/
inductive Stale where
  | none
  | package
  | system
deriving DecidableEq, Repr

/-- A cluster-cache line with its state (R368). -/
structure CacheLine where
  tag : Nat
  fill : Bool
  ss : Stale
  ver : BitVec 8
  dmask : BitVec 128
  wmask : BitVec 8
  data : List Byte
deriving DecidableEq, Repr

/-- The classes of objects (R281). -/
inductive ObjClass where
  | priv
  | readonly
  | cluster
  | package
  | system
deriving DecidableEq, Repr

/-- An entry of an object table (R300, R302). -/
structure ObjEntry where
  cls : ObjClass
  rows : Nat
  rowbytes : Nat
  stride : Nat
  base : Nat
  launch : BitVec 16
deriving DecidableEq, Repr

/-- A cluster: its cache, versions, dirty lists (core and line, oldest first) and object table (R368-R376). -/
structure Cluster where
  lines : List CacheLine
  pkgVer : BitVec 8
  sysVer : BitVec 8
  dirtyList : List (Nat × Nat)
  objects : List ObjEntry
deriving DecidableEq, Repr

/-- An L2 line (R368): its tag, the bytes that it holds (its fill mask), its dirty bytes, its data. -/
structure L2Line where
  tag : Nat
  fmask : BitVec 128
  dmask : BitVec 128
  data : List Byte
deriving DecidableEq, Repr

/-- A page under migration (R387): the function and the tag of its command, the page's ASID and base, the physical addresses of its leaf
and of the page's old and new place, the page size as a power of two, and how many of the four steps are done; the command completes after
the fourth. -/
structure Migration where
  fn : Nat
  reply : Nat
  asid : Nat
  va : Nat
  leaf : Nat
  old : Nat
  new : Nat
  lg : Nat
  steps : Nat
deriving DecidableEq, Repr

/-- An RZINIT (with its count) or an RZARR that has retired and has not reached the object's stash (R277): the issuer, the stash that holds
the object and its offset there, the object's address, and how many writes of the issuer's store drain are older than it (R116). -/
structure RzUpdate where
  core : Nat
  strand : Word
  owner : Nat
  off : Nat
  addr : Nat
  init : Option Nat
  older : Nat
deriving DecidableEq, Repr

/-- What a counter update does to one counter of a sketch (R213, R215, R216). -/
inductive CounterOp where
  | set (v : Int)
  | add (delta : Int)
  | addFrom (source : Nat)
  | mul (factor : BitVec 32)
deriving DecidableEq, Repr

/-- A sketch operation that its header unit has begun (R230): the post, and the counter updates not yet applied. -/
structure SketchJob where
  post : Post
  updates : List (Nat × CounterOp)
deriving DecidableEq, Repr

/-- The state of a side-log entry (R333). -/
inductive LogState where
  | pending
  | applied
  | discarded
deriving DecidableEq, Repr

/-- A side-log entry (R333): its offset in the log, the post, the failing address, the cause, and whether software has written state 0b11
to it (R338). -/
structure LogEntry where
  seq : Nat
  off : Nat
  post : Post
  faddr : Word
  cause : Nat
  state : LogState
  marked : Bool
deriving DecidableEq, Repr

/-- A side log of a controller for a colour (R332, R333): `full` from an entry that had no room until the log is empty, `rung` from a write
to its doorbell line until the replay that it starts, `replaying` while a replay waits at an entry (R337). -/
structure SideLog where
  ctrl : Nat
  colour : Nat
  head : Nat
  tail : Nat
  entries : List LogEntry
  full : Bool
  rung : Bool
  replaying : Bool
deriving DecidableEq, Repr

/-- An entry of a gradient lane (R245). -/
structure GradEntry where
  tile : Tile
  key : Word
  sender : Word
  core : Nat
deriving DecidableEq, Repr

structure GradLane where
  lane : Nat
  sender : Option Word
  entries : List GradEntry
deriving DecidableEq, Repr

/-- A gradient queue of a live launch (R89, R245). -/
structure GradQueue where
  launch : BitVec 16
  queue : Nat
  badger : Nat
  fmt : BitVec 5
  rowbytes : Nat
  window : Nat
  lanes : List GradLane
deriving DecidableEq, Repr

/-- A window count on its way back to a sender (R248), from the mesh stop of its queue, with the number of its packet (R427). -/
structure CountReturn where
  core : Nat
  strand : Word
  queue : Nat
  lane : Nat
  stop : Nat
  number : Nat
deriving DecidableEq, Repr

/-- A collective (R255, R256). -/
inductive CollKind where
  | red (n : Nat)
  | sketch
deriving DecidableEq, Repr

/-- Where a collective stands: not paired, paired with its result on the way (an error or not), complete (R256, R257). -/
inductive CollStatus where
  | pending
  | paired (failed : Bool)
  | done
  | error
deriving DecidableEq, Repr

structure Collective where
  core : Nat
  strand : Word
  asid : Nat
  colour : Nat
  tag : Nat
  seq : Nat
  ordinal : Nat
  kind : CollKind
  sup : Bool
  addr : Nat
  ranges : List (Nat × Nat)
  status : CollStatus
deriving DecidableEq, Repr

/-- What an arrival carries (R470). -/
inductive Contribution where
  | none
  | offer (v : Word)
  | value (op : Nat) (u : Bool) (v : Word)
deriving DecidableEq, Repr

/-- A member of an Owlwire segment: its strand index, its core when placed, the core of its latest arrival, its arrival count, its
uncompleted arrivals (oldest first). -/
structure SyMember where
  index : Nat
  core : Option Nat
  seat : Nat
  count : BitVec 16
  arrivals : List Contribution
deriving DecidableEq, Repr

/-- An Owlwire segment (R261-R265, R469): physical channel, the number its members use, the launch and the unit, its scope. -/
structure Segment where
  phys : Nat
  name : Nat
  launch : BitVec 16
  level : Nat
  unit : Nat
  scope : Nat
  gen : BitVec 16
  members : List SyMember
  results : List SyResult
deriving DecidableEq, Repr

/-- A class-12 report under way from a memory controller (R335): the issuer and the exception that it will record; the number of its packet
(R427). -/
structure Report where
  core : Nat
  strand : Word
  exc : Exc
  number : Nat
deriving DecidableEq, Repr

/-- Where a sheaf of a launch stands (R406, R421, R425): not placed, decided with the dispatcher clock of its start, running, stopped by
a pre-emption, ended. -/
inductive SheafPhase where
  | waiting
  | decided (due : Nat)
  | running
  | preempted
  | ended
deriving DecidableEq, Repr

/-- A sheaf of a launch (R406, R407): its index, whether it is the badger sheaf, its origin core, whether restitched. -/
structure Sheaf where
  index : Nat
  badger : Bool
  origin : Nat
  phase : SheafPhase
deriving DecidableEq, Repr

/-- A strand of a launch (R18, R407): its index, its sheaf, its core while placed, whether it has ended, the number of its images,
whether it was stopped with one, the class-12 and class-15 causes kept for it while it is not placed (R330, R335), whether it has ever
started, its latest incarnation, and those before it (R25, R425); what the front end reads for code that it has stored, while it is stopped
(R340). -/
structure StrandInfo where
  index : Nat
  sheaf : Nat
  core : Option Nat
  ended : Bool
  images : Nat
  stopped : Bool
  kept : List Exc
  ran : Bool
  inc : BitVec 16
  past : List (BitVec 16)
  code : Memory
deriving DecidableEq, Repr

/-- A reservation of cores (R413): the dispatcher clock from which its second patience counts. -/
structure Reservation where
  cores : List Nat
  since : Nat
deriving DecidableEq, Repr

/-- A launch that spans both cards (R412): not such a launch, waiting for card 1, reserved there, committed. -/
inductive PairPhase where
  | single
  | asked
  | reserved
  | committed
deriving DecidableEq, Repr

/-- A live launch (R392, R402-R417): its id, its record as 32 words, whether its waits were met, since when it is a head, its
reservation, its sheaves and strands, the highest status that applies, and the fields of its completion record (a cause with its strand
index and the clock at which it was noted). -/
structure Launch where
  id : BitVec 16
  record : List Word
  pair : PairPhase
  eligible : Bool
  front : Bool
  headSince : Option Nat
  reservation : Option Reservation
  sheaves : List Sheaf
  strands : List StrandInfo
  status : Nat
  first : Option Nat
  last : Nat
  preempts : Nat
  discards : Nat
  undelivered : Nat
  cause : Option (Nat × Nat × Nat)
  finished : Bool
deriving DecidableEq, Repr

/-- A partition (R395, R422, R437): its colour, its resources, its page tables (base and bytes), the HBM of its side logs (R332), its
nonzero tokens, its pre-emption patience, the peer's colour, the clock of the pre-emption signal while it is being pre-empted, whether its pre-empted sheaves wait for a
resume command, the Owlwire segments saved, the messages dropped for want of a queue (R419), the function and tag of the command that
waits for the pre-emption, the core that is being retired (R445), the launch to be placed first (R414). -/
structure Partition where
  colour : Nat
  clusters : BitVec 32
  badgers : BitVec 32
  channels : BitVec 32
  asidFirst : Nat
  asidLast : Nat
  quota : Nat
  tables : List (Nat × Nat)
  logs : Nat
  tokens : List (Nat × Nat)
  patience : Nat
  peerColour : Option Nat
  preempting : Option Nat
  preempted : Bool
  saved : List Segment
  dropped : Nat
  reply : Option (Nat × Nat)
  retiring : Option Nat
  firstUp : Option (BitVec 16)
deriving DecidableEq, Repr

/-- A restitched rectangle (R430): its colour, origin and size in cores, its topology, whether the restitching has ended,
the function and tag of the command that asked for it and has not been answered, and the launch and sheaf for which it was requested. -/
structure Region where
  colour : Nat
  row : Nat
  col : Nat
  rows : Nat
  cols : Nat
  topology : Nat
  complete : Bool
  reply : Option (Nat × Nat)
  owner : Option (BitVec 16 × Nat)
deriving DecidableEq, Repr

/-- The BAR0 registers of a function (R435), the number of the next ordered write of its domain (R432), how often each of its MSI-X vectors
has been raised (R431), and the wait command that it has taken and not completed (R436): tag, colour, token, target. -/
structure Function where
  cbase : Word
  cqbase : Word
  evbase : Word
  lgsize : BitVec 16
  cprod : BitVec 32
  ccons : BitVec 32
  qprod : BitVec 32
  evprod : BitVec 32
  evcons : BitVec 32
  ingress : Nat
  interrupts : Vector Nat 64
  busy : Option (Nat × Nat × Nat × Nat)
deriving DecidableEq, Repr

/-- A posted write that the ingress sequencer has taken and L2 has not accepted (R432): its function, its number (none: relaxed), the
address in the shared region, its bytes. -/
structure IngressWrite where
  fn : Nat
  number : Option Nat
  va : Nat
  bytes : List Byte
deriving DecidableEq, Repr

/-- A flit in a replay buffer (R440). -/
structure Flit where
  seq : Nat
  bytes : List Byte
  tries : Nat
deriving DecidableEq, Repr

/-- A bridge port (R439-R442): working, the lanes in use, whether it retrains, its send and receive sequence numbers, its replay
buffer, the flits that it has sent and that have not arrived, the slots received and not yet served, the ack to send, the flits received
since its last ack, and its counters of R449. -/
structure Port where
  working : Bool
  lanes : Nat
  retraining : Bool
  nextSeq : Nat
  expected : Nat
  replay : List Flit
  wire : List (List Byte)
  slots : List (List Byte)
  outbox : List (BitVec 32)
  unacked : Nat
  failed : Nat
  replayed : Nat
  refused : Nat
  degrades : Nat
  trainings : Nat
deriving DecidableEq, Repr

/-- The bridge (R442): up (some port working and trained), which package is card 0, and the port of each source with a transaction
outstanding. -/
structure Bridge where
  up : Bool
  cardZero : Bool
  ports : Vector Port 4
  domains : List (Nat × Nat)
deriving DecidableEq, Repr

/-- The power states of R448. -/
inductive PowerState where
  | active
  | sleeping
  | d3hot
deriving DecidableEq, Repr

/-- Power (R448): the clock in MHz, whether the latest sample was above the limit, how many consecutive samples were more than 5 percent
below it, the gated clusters, the last host access or placement. -/
structure Power where
  state : PowerState
  mhz : Nat
  above : Bool
  below : Nat
  gated : BitVec 32
  lastUse : Nat
deriving DecidableEq, Repr

/-- The service counters and tables of R428, R443-R449. -/
structure Service where
  corrected : List (Nat × Nat)
  coreErrors : List (Nat × Nat)
  setErrors : List ((Nat × Nat) × Nat)
  mappedOut : List (Nat × Nat)
  spared : List Nat
  retired : List Nat
  fabricDrops : Nat
  copyErrors : Nat
  collErrors : Nat
  storesDropped : Nat
  lostEvents : Nat
  pacedClocks : Nat
  clockSteps : Nat
  undeliverable : Nat
deriving DecidableEq, Repr

/-- What the device answers over DOE (R447). -/
inductive SpdmMessage where
  | version (v : Nat)
  | capabilities
  | algorithms (signature hash : String)
  | digests (bytes : List Byte)
  | certificate (bytes : List Byte)
  | challengeAuth (nonce : List Byte) (signature : List Byte)
  | measurements (blocks : List (List Byte))
deriving DecidableEq, Repr

/-- The update region in force (R446): its version, its bytes. -/
structure Firmware where
  version : Nat
  region : List Byte
deriving DecidableEq, Repr

/-- An entry of a router's combining table (R429): the line, the core of its first read, the cores of the reads absorbed. (A reply that has
been forked to a badger core, which has no cluster cache, stands in Card.forked with its line until its read takes it.) -/
structure CombineEntry where
  router : Nat
  tag : Nat
  first : Nat
  absorbed : List Nat
deriving DecidableEq, Repr

/-- A card: the cores not in focus, the clusters, HBM and L2, translation, the posted work under way, Owlwire, the dispatchers and the
firmware's tables, the host port, the bridge, power and service. -/
structure Card where
  serial : Nat
  cores : List Core
  clusters : Vector Cluster 32
  hbm : Memory
  l2 : List L2Line
  hostLines : List Nat
  snoops : List Nat
  ownTables : List (Nat × Nat)
  unitTlb : List UnitTlbEntry
  walkCache : List WalkEntry
  migrations : List Migration
  malformed : Nat
  packets : Nat
  flight : List Post
  jobs : List SketchJob
  sideLogs : List SideLog
  queues : List GradQueue
  returns : List CountReturn
  messages : List (Message × Nat)
  undeliverable : List (Message × Nat)
  colls : List Collective
  tagCounts : Vector Nat 16
  rendezvous : List RzUpdate
  reports : List Report
  segments : List Segment
  incarnations : List (Nat × BitVec 16)
  partitions : List Partition
  launches : List Launch
  ends : List (BitVec 16 × Nat)
  clocks : Vector Nat 2
  regions : List Region
  combining : List CombineEntry
  forked : List (Nat × Nat)
  functions : Vector Function 17
  held : List IngressWrite
  windowBase : Word
  spdm : List SpdmMessage
  bridge : Bridge
  power : Power
  service : Service
  firmware : Firmware
deriving DecidableEq, Repr

/-- The host: its memory by host address (R308, R360), the values that its reads of device memory have returned (R432, R434), and those of
its register reads, by function and offset (R435); both newest first. -/
structure HostSide where
  mem : Memory
  reads : List (Nat × List Byte)
  registers : List ((Nat × Nat) × Word)
deriving DecidableEq, Repr

/-- Whose step comes next: the strand of the core in focus, an event of the table, a store of the host's processors to host memory (R308),
or a change of the focus to another core of the card or to the other card (DESIGN CHOICE, log entry 3). -/
inductive Turn where
  | strand
  | event (i : Instr)
  | hostStore (addr : Nat) (bytes : List Byte)
  | focusCore (n : Nat)
  | swapCards
deriving DecidableEq, Repr

/-- The machine: the core in focus, its card with every other core, the peer card, the host, the turns to come, and the number of free
choices drawn so far (the last two are the model's own, log entries 2 and 3). -/
structure State where
  core : Core
  card : Card
  peer : Card
  host : HostSide
  agenda : List Turn
  draws : Nat
deriving DecidableEq, Repr

/-- Why the machine stops: it never does, since the spec gives every state an effect. The type has no constructor. -/
inductive Fault
deriving DecidableEq, Repr

/-- Why an instruction has no meaning. -/
inductive Refusal where
  /-- An instruction that the model does not give a meaning; no arm raises it. Safe. -/
  | notModelled (mnemonic : String)
deriving DecidableEq, Repr

/-- A copy channel with nothing queued and every shadow 0 (R23, R233). -/
def CopyChannel.reset : CopyChannel := ⟨0, 0, 0, 0, 0, 0, 0, 0, 0, 0, [], 0, none, none⟩

/-- A stash with nothing written and nothing mapped (R28). -/
def Stash.reset : Stash := ⟨[], [], 0, 0, Vector.replicate 8 none, none⟩

/-- The largest shape, 64 rows of 128 bytes (R21). -/
def shapeReset : Word := BitVec.ofNat 64 (128 * 2 ^ 7 + 64)

/-- Scale 1.0 with amax 0 (R22). -/
def quantReset : Word := 0x3F800000#64

/-- A core after reset: every register at the value of R23 and R24, at the launch value where the spec ties it to a launch, else 0
(DESIGN CHOICE, log entry 4). -/
def Core.reset (num : Nat) (kind : CoreKind) : Core where
  num := num
  kind := kind
  run := .idle
  limits := ⟨32, 4, 2, 4, 192⟩
  pc := 0
  x := Vector.replicate 64 0
  t := Vector.replicate 32 Tile.empty
  a := Vector.replicate 8 Acc.zero
  w := Vector.replicate 4 ⟨Tile.empty, Tile.empty⟩
  h := Vector.replicate 8 shapeReset
  q := Vector.replicate 16 quantReset
  cycle := 0
  strand := 0
  lvl := Vector.replicate 8 0
  ps := 0
  seed := 0
  serial := 0
  tvec := 0
  epc := 0
  cause := 0
  faddr := 0
  finfo := 0
  sytmo := 0
  asid := 0
  colour := 0
  dirtyT := 0
  dirtyA := 0
  dirtyW := 0
  scr := Vector.replicate 4 0
  stash := Stash.reset
  drain := []
  sent := false
  tlb := []
  icache := []
  lineBuffer := []
  codeView := []
  posts := []
  copies := Vector.replicate 8 CopyChannel.reset
  copyTurn := 0
  linkSeq := 0
  windowCounts := []
  inbox := []
  unaccepted := 0
  held := []
  waitFrom := none
  waiting := none
  parked := .free
  reports := []
  preempt := none
  machineChecks := []
  imageAddr := none
  dfltTable := false
  fw := []
  early := []
  passed := []

/-- A BAR0 register set after reset (R435). -/
def Function.reset : Function := ⟨0, 0, 0, 0, 0, 0, 0, 0, 0, 0, Vector.replicate 64 0, none⟩

/-- A bridge port before training (R442). -/
def Port.reset : Port := ⟨true, 8, false, 0, 0, [], [], [], [], 0, 0, 0, 0, 0, 0⟩

/-- The cores of a card: 256 compute cores and 32 badger cores (R23). -/
def coresReset : List Core :=
  (List.range 256).map (Core.reset · .compute) ++ (List.range 32).map fun j => Core.reset (256 + j) .badger

/-- A card after reset, with its device serial number and the cores that are not in focus. -/
def Card.reset (serial : Nat) (cores : List Core) : Card where
  serial := serial
  cores := cores
  clusters := Vector.replicate 32 ⟨[], 0, 0, [], []⟩
  hbm := []
  l2 := []
  hostLines := []
  snoops := []
  ownTables := []
  unitTlb := []
  walkCache := []
  migrations := []
  malformed := 0
  packets := 0
  flight := []
  jobs := []
  sideLogs := []
  queues := []
  returns := []
  messages := []
  undeliverable := []
  colls := []
  tagCounts := Vector.replicate 16 0
  rendezvous := []
  reports := []
  segments := []
  incarnations := []
  partitions := []
  launches := []
  ends := []
  clocks := Vector.replicate 2 0
  regions := []
  combining := []
  forked := []
  functions := Vector.replicate 17 Function.reset
  held := []
  windowBase := 0
  spdm := []
  bridge := ⟨false, true, Vector.replicate 4 Port.reset, []⟩
  power := ⟨.active, 1700, false, 0, 0, 0⟩
  service := ⟨[], [], [], [], [], [], 0, 0, 0, 0, 0, 0, 0, 0⟩
  firmware := ⟨0, []⟩

/-- The machine right after package reset: compute core 0 of card 0 in focus, no strand placed, nothing written anywhere. -/
def State.reset : State where
  core := Core.reset 0 .compute
  card := Card.reset 0 coresReset.tail
  peer := Card.reset 1 coresReset
  host := ⟨[], [], []⟩
  agenda := []
  draws := 0

end Sys2Proof.Machine
end

