-- ==== Sys2Proof/Machine/Regs.lean ====
section
/-! DEFINITION. The registers of a core: reads and writes of every file (R19-R25), fields of s.ps, sequential flow (R61), and the
checks that instructions share (R90, R130). -/

namespace Sys2Proof.Machine

/-- x0-x63: x0 reads 0 (R19). -/
def Core.xr (c : Core) (r : BitVec 6) : Word := if r = 0#6 then 0#64 else c.x[r.toNat]

/-- A write to x0 is ignored (R19, R91). -/
def Core.setX (c : Core) (r : BitVec 6) (v : Word) : Core :=
  if r = 0#6 then c else { c with x := c.x.set r.toNat v }

def Core.tr (c : Core) (r : BitVec 5) : Tile := c.t[r.toNat]

/-- A tile write sets its bit of s.dirty.t as the writer retires (R23, R150). -/
def Core.setT (c : Core) (r : BitVec 5) (v : Tile) : Core :=
  { c with t := c.t.set r.toNat v, dirtyT := c.dirtyT ||| 1#32 <<< r.toNat }

def Core.ar (c : Core) (r : BitVec 3) : Acc := c.a[r.toNat]

/-- An accumulator write sets its bit of s.dirty.a (R155). -/
def Core.setA (c : Core) (r : BitVec 3) (v : Acc) : Core :=
  { c with a := c.a.set r.toNat v, dirtyA := c.dirtyA ||| 1#8 <<< r.toNat }

def Core.wr (c : Core) (r : BitVec 2) : Pin := c.w[r.toNat]

/-- MPIN sets its pin's bit of s.dirty.w (R155). -/
def Core.setW (c : Core) (r : BitVec 2) (v : Pin) : Core :=
  { c with w := c.w.set r.toNat v, dirtyW := c.dirtyW ||| 1#4 <<< r.toNat }

def Core.hr (c : Core) (r : BitVec 3) : Word := c.h[r.toNat]
def Core.qr (c : Core) (r : BitVec 4) : Word := c.q[r.toNat]

def Core.setQ (c : Core) (r : BitVec 4) (v : Word) : Core := { c with q := c.q.set r.toNat v }

/-- The rows and row bytes of a shape register (R21). -/
def Core.hRows (c : Core) (r : BitVec 3) : Nat := ((c.hr r).extractLsb' 0 7).toNat
def Core.hRowbytes (c : Core) (r : BitVec 3) : Nat := ((c.hr r).extractLsb' 7 8).toNat

/-- The scale and the amax of a quant register (R22). -/
def Core.qScale (c : Core) (r : BitVec 4) : Nat := ((c.qr r).extractLsb' 0 32).toNat
def Core.qAmax (c : Core) (r : BitVec 4) : Nat := ((c.qr r).extractLsb' 32 32).toNat

/-- s.ps fields (R24). -/
def Core.supervisor (c : Core) : Bool := c.ps.getLsbD 15
def Core.pmode (c : Core) : Bool := c.ps.getLsbD 16
def Core.fptrap (c : Core) : BitVec 5 := c.ps.extractLsb' 10 5
def Core.psRnd (c : Core) : BitVec 2 := c.ps.extractLsb' 8 2
def Core.fpflags (c : Core) : BitVec 5 := c.ps.extractLsb' 3 5
def Core.sytrap (c : Core) : Bool := c.ps.getLsbD 2
def Core.latetrap (c : Core) : Bool := c.ps.getLsbD 1

/-- Sticky flags set at retire (R54). -/
def Core.orFlags (c : Core) (f : BitVec 5) : Core := { c with ps := c.ps ||| f.setWidth 64 <<< 3 }

/-- One SR-using instruction retires (R46). -/
def Core.countSr (c : Core) (used : Bool) : Core := if used then { c with serial := c.serial + 1#44 } else c

/-- The slot of a PC within its line, as a byte offset (R61). -/
def pcOffset (pc : Word) : Nat := pc.toNat % 64

/-- A valid PC (R61). -/
def validPc (pc : Word) : Bool :=
  decide (pc.toNat < 2 ^ 52) &&
    (pcOffset pc == 0 || pcOffset pc == 12 || pcOffset pc == 24 || pcOffset pc == 36 || pcOffset pc == 48)

/-- The line that holds a PC. -/
def lineOf (pc : Word) : Word := pc - BitVec.ofNat 64 (pcOffset pc)

/-- The next slot in sequential flow (R61). -/
def nextPc (pc : Word) : Word := if pcOffset pc = 48 then pc + 16#64 else pc + 12#64

/-- The PC after n further slots. -/
def skipPc : Nat → Word → Word
  | 0, pc => pc
  | n + 1, pc => skipPc n (nextPc pc)

def Core.advance (c : Core) : Core := { c with pc := nextPc c.pc }

/-- s.finfo of engine instructions (R130). -/
def engineInfo (row engine role tile : Nat) (opcode : BitVec 8) : Word :=
  BitVec.ofNat 64 (row * 2 ^ 20 + engine * 2 ^ 16 + role * 2 ^ 13 + tile * 2 ^ 8 + opcode.toNat)

/-- s.finfo of scalar memory instructions (R114). -/
def scalarInfo (xd : BitVec 6) (opcode : BitVec 8) : Word := BitVec.ofNat 64 (xd.toNat * 2 ^ 8 + opcode.toNat)

/-- A check: the exception when it fails. -/
def need (ok : Bool) (x : Exc) : Except Exc Unit := if ok then .ok () else .error x

/-- A class-1 fault at the instruction in focus (R72). -/
def Core.illegal (c : Core) (detail : Nat) (opcode : BitVec 8) : Exc := ⟨1, detail, c.pc, opcode.setWidth 64⟩

/-- R90: in user mode a tile, accumulator or pin number, a copy channel or a copy shadow at or above the declared value is a
reserved value. -/
def Core.within (c : Core) (n limit : Nat) : Bool := c.supervisor || decide (n < limit)

def Core.needTiles (c : Core) (op : BitVec 8) (ts : List (BitVec 5)) : Except Exc Unit :=
  need (ts.all fun t => c.within t.toNat c.limits.tiles) (c.illegal 3 op)

def Core.needAccs (c : Core) (op : BitVec 8) (as : List (BitVec 3)) : Except Exc Unit :=
  need (as.all fun a => c.within a.toNat c.limits.acc) (c.illegal 3 op)

def Core.needPins (c : Core) (op : BitVec 8) (ws : List (BitVec 2)) : Except Exc Unit :=
  need (ws.all fun w => c.within w.toNat c.limits.pins) (c.illegal 3 op)

/-- Class 6 detail 0x00: command processors run the scalar subset only (R27, R170). -/
def Core.needEngine (c : Core) (op : BitVec 8) (engine : Nat) : Except Exc Unit :=
  need (c.kind != .command) ⟨6, 0, 0#64, engineInfo 0 engine 0 0 op⟩

/-- R54 at retire: the highest-priority enabled exception as (detail, lowest element), or none. `events` lists the elements that
raised something, in ascending order. -/
def enabledFault (trap : BitVec 5) (events : List (Nat × FpFlags)) : Option (Nat × Nat) :=
  let find (b : Nat) (detail : Nat) : Option (Nat × Nat) :=
    if trap.getLsbD b then (events.find? fun e => e.2.getLsbD b).map fun e => (detail, e.1) else none
  (find 4 1).orElse fun _ => (find 3 2).orElse fun _ => (find 2 3).orElse fun _ => (find 1 4).orElse fun _ => find 0 5

/-- All exceptions raised. -/
def allFlags (events : List (Nat × FpFlags)) : FpFlags := events.foldl (fun f e => f ||| e.2) 0#5

end Sys2Proof.Machine
end

