-- ==== Sys2Proof/WellFormed.lean ====
section
/-! DEFINITION. Which instruction words are well formed. `fieldsClear` holds the reserved fields that depend on another field of the word (R67),
`valuesOk` the reserved values (R67, R72 detail 0x03) that can be told from the word alone; `wellFormed` is both.
Rules that depend on the state (R90, R180 step 4, R169 step 5) stand with the meanings. -/

namespace Sys2Proof

/-- A condition code that integer comparisons accept (R76, R95). -/
def intCond (cond : BitVec 4) : Bool := decide (cond.toNat ≤ 9)

/-- A condition code that floating-point comparisons accept (R76, R101). -/
def fpCond (cond : BitVec 4) : Bool := decide (cond.toNat ≤ 5) || cond == 10#4

/-- A rounding modifier of R77. -/
def rmodeOk (rmode : BitVec 3) : Bool := decide (rmode.toNat ≤ 4)

/-- A target slot of a direct branch (R68). -/
def tslotOk (tslot : BitVec 3) : Bool := decide (tslot.toNat ≤ 4)

/-- The sizes of atomics (R77). -/
def atomSize (size : BitVec 2) : Bool := size == 2#2 || size == 3#2

/-- A format tag that is not reserved (R34, R35). -/
def tagOk (fmt : BitVec 5) : Bool := decide (fmt.toNat ≤ 14)

/-- An element index with imm32[31:14] zero (R139). -/
def elemIdx (imm : BitVec 32) : Bool := decide (imm.toNat < 2 ^ 14)

/-- A block origin with imm32[7:6] and imm32[31:14] zero (R157). -/
def originOk (imm : BitVec 32) : Bool := elemIdx imm && imm.extractLsb' 6 2 == 0#2

/-- The rnd codes 0b00 and 0b01 (R79). -/
def rndOk (rnd : BitVec 2) : Bool := decide (rnd.toNat ≤ 1)

/-- MDRAIN's formats FP32, FP16, BF16, E4M3, E5M2 and FA48, with what FA48 reserves (R165). -/
def mdrainOk (fmt : BitVec 5) (quant : BitVec 4) (imm : BitVec 32) (rnd : BitVec 2) (inf amax : Bool) : Bool :=
  rndOk rnd && originOk imm &&
    (fmt == 2#5 || fmt == 3#5 || fmt == 4#5 || fmt == 5#5 || fmt == 6#5 ||
      (fmt == 13#5 && quant == 0#4 && rnd == 0#2 && !inf && !amax))

/-- The four forms of R177. -/
def formOk (form : BitVec 3) : Bool := decide (form.toNat ≤ 3)

/-- The fields that the form reserves: tb under .XS, xs in every other form (R177, R182). -/
def formClear (form : BitVec 3) (tb : BitVec 5) (xs : BitVec 6) : Bool :=
  if form == 1#3 then tb == 0#5 else xs == 0#6

/-- The destination formats of VCMP (R184). -/
def cmpFmt (fmt : BitVec 5) : Bool := fmt == 8#5 || fmt == 9#5 || fmt == 10#5 || fmt == 11#5

/-- The destination formats of VCVT (R186). -/
def cvtFmt (fmt : BitVec 5) : Bool :=
  (decide (1 ≤ fmt.toNat) && decide (fmt.toNat ≤ 11)) || fmt == 13#5

/-- VCVT to E2M1 with tc equal to td is a reserved value (R187). -/
def cvtTc (fmt td tc : BitVec 5) : Bool := !(fmt == 7#5 && td == tc)

/-- The formats of VRAND (R191). -/
def randFmt (fmt : BitVec 5) : Bool :=
  fmt == 0#5 || fmt == 9#5 || fmt == 10#5 || fmt == 11#5 || fmt == 2#5 || fmt == 3#5 || fmt == 4#5

/-- The formats of VIOTA (R192). -/
def iotaFmt (fmt : BitVec 5) : Bool := fmt == 10#5 || fmt == 11#5 || fmt == 2#5

/-- The fields that VCLAMP's form reserves: tb and tc under .XS, xs and imm32 in every other form (R193). -/
def clampClear (form : BitVec 3) (tb tc : BitVec 5) (xs : BitVec 6) (imm : BitVec 32) : Bool :=
  if form == 1#3 then tb == 0#5 && tc == 0#5 else xs == 0#6 && imm == 0#32

/-- The result formats of VRSUM and VCSUM (R194). -/
def sumFmt (fmt : BitVec 5) : Bool :=
  fmt == 2#5 || fmt == 3#5 || fmt == 4#5 || fmt == 10#5 || fmt == 11#5

/-- The formats of F and I (R182, R194). -/
def fiFmt (fmt : BitVec 5) : Bool :=
  fmt == 1#5 || fmt == 2#5 || fmt == 3#5 || fmt == 4#5 || fmt == 10#5 || fmt == 11#5

/-- VBCAST: .E takes an element index, .R a row number below 64 (R197). -/
def bcastOk (sel : BitVec 4) (imm : BitVec 32) : Bool :=
  (sel == 0#4 && elemIdx imm) || (sel == 1#4 && decide (imm.toNat < 64))

/-- The tile and .ROW forms (R198, R200). -/
def tileRow (form : BitVec 3) : Bool := form == 0#3 || form == 2#3

/-- The result formats of VRDOT (R200). -/
def dotFmt (fmt : BitVec 5) : Bool := fmt == 2#5 || fmt == 3#5 || fmt == 4#5

/-- The fields that the key form of SKUPD and SKQRY reserves: the key tile under .D, xb under .K (R209, R210). A reserved sel is
read as .K here, so that its key tile is no reserved field (R73 leaves it open, DESIGN CHOICE, log entry 59). -/
def keyClear (sel : BitVec 4) (xb : BitVec 6) (tk : BitVec 5) : Bool :=
  if sel == 0#4 then tk == 0#5 else xb == 0#6

/-- The key forms .D and .K (R209). -/
def keySel (sel : BitVec 4) : Bool := decide (sel.toNat ≤ 1)

/-- An Owlwire channel number (R267). -/
def chanOk (index : BitVec 8) : Bool := decide (index.toNat ≤ 63)

/-- The special registers whose MTS is no row of its own in the table: s.ps, s.seed, s.tvec, s.asid and h0-h7 have their own (R23). -/
def mtsPlain (sreg : BitVec 12) : Bool :=
  !(sreg == 0x010#12 || sreg == 0x011#12 || sreg == 0x012#12 || sreg == 0x020#12 || sreg.extractLsb' 3 9 == 0x020#9)


/-- The reserved fields of a word that another of its fields decides (R67, R177, R187, R193, R210, R267). -/
def fieldsClear (i : Instr) : Bool :=
  match i with
  | .vadd _ _ tb xs form _ _ => formClear form tb xs
  | .vsub _ _ tb xs form _ _ => formClear form tb xs
  | .vmul _ _ tb xs form _ _ => formClear form tb xs
  | .vfma _ _ tb xs form _ _ _ => formClear form tb xs
  | .vmin _ _ tb xs form => formClear form tb xs
  | .vmax _ _ tb xs form => formClear form tb xs
  | .vand _ _ tb xs form => formClear form tb xs
  | .vor _ _ tb xs form => formClear form tb xs
  | .vxor _ _ tb xs form => formClear form tb xs
  | .vshl _ _ tb xs form => formClear form tb xs
  | .vshr _ _ tb xs form _ => formClear form tb xs
  | .vcmp _ _ tb xs form _ _ _ => formClear form tb xs
  | .vsel _ _ tb xs form _ => formClear form tb xs
  | .vdiv _ _ tb xs form _ _ => formClear form tb xs
  | .vcvt _ _ _ tc _ fmt _ _ _ _ => (fmt == 7#5 || tc == 0#5)
  | .vclamp _ _ tb tc xs imm form => clampClear form tb tc xs imm
  | .skupd _ _ xb tk sel => keyClear sel xb tk
  | .skqry _ _ xb tk sel _ => keyClear sel xb tk
  | .sybc _ xa _ _ sel _ _ => (sel == 1#4 || xa == 0#6)
  | .syred _ _ _ _ sel u _ _ => (sel == 1#4 || sel == 2#4 || !u)
  | _ => true

/-- The reserved values of a word (R67, R76-R81 and the instruction descriptions). -/
def valuesOk (i : Instr) : Bool :=
  match i with
  | .mts _ sreg => mtsPlain sreg
  | .stmap index _ _ imm => decide (index.toNat ≤ 7) && decide (imm.toNat < 32)
  | .stunmap index => decide (index.toNat ≤ 7)
  | .stflush index sel => index != 0#8 && decide (sel.toNat ≤ 1)
  | .cmp _ _ _ cond => intCond cond
  | .shli _ _ imm => decide (imm.toNat ≤ 63)
  | .shri _ _ imm => decide (imm.toNat ≤ 63)
  | .sari _ _ imm => decide (imm.toNat ≤ 63)
  | .cmpi _ _ _ cond => intCond cond
  | .sext _ _ imm => decide (1 ≤ imm.toNat) && decide (imm.toNat ≤ 64)
  | .zext _ _ imm => decide (1 ≤ imm.toNat) && decide (imm.toNat ≤ 64)
  | .fadd _ _ _ _ rmode => rmodeOk rmode
  | .fsub _ _ _ _ rmode => rmodeOk rmode
  | .fmul _ _ _ _ rmode => rmodeOk rmode
  | .ffma _ _ _ _ _ rmode => rmodeOk rmode
  | .fdiv _ _ _ _ rmode => rmodeOk rmode
  | .fsqrt _ _ _ rmode => rmodeOk rmode
  | .fcmp _ _ _ _ cond => fpCond cond
  | .fcvt _ _ stype dtype rmode => rmodeOk rmode && decide (stype.toNat ≤ 3) && decide (dtype.toNat ≤ 3) && stype != dtype
  | .br _ _ cond tslot _ => intCond cond && tslotOk tslot
  | .bri _ _ cond tslot _ => intCond cond && tslotOk tslot
  | .jmp tslot _ => tslotOk tslot
  | .call tslot _ => tslotOk tslot
  | .loop _ tslot _ => tslotOk tslot
  | .cmpsk _ _ cond skip => intCond cond && skip != 0#2
  | .cmpski _ cond skip _ => intCond cond && skip != 0#2
  | .ld _ _ _ size sx => !(size == 3#2 && sx)
  | .lda _ _ _ size sx _ => !(size == 3#2 && sx)
  | .aadd _ _ _ size _ _ _ => atomSize size
  | .amin _ _ _ size _ _ _ _ => atomSize size
  | .amax _ _ _ size _ _ _ _ => atomSize size
  | .aand _ _ _ size _ _ _ => atomSize size
  | .aor _ _ _ size _ _ _ => atomSize size
  | .axor _ _ _ size _ _ _ => atomSize size
  | .aswp _ _ _ size _ _ _ => atomSize size
  | .acas _ _ _ _ size _ _ _ => atomSize size
  | .red _ _ _ op type => op != 3#2 && type != 3#2
  | .tld _ _ fmt _ _ _ _ _ => tagOk fmt
  | .tst _ _ fmt _ _ _ _ => tagOk fmt
  | .tldx _ _ fmt _ _ ti _ _ => tagOk fmt && decide (ti.toNat < 32)
  | .tstx _ _ fmt _ _ ti _ => tagOk fmt && decide (ti.toNat < 32)
  | .tzero _ _ fmt _ => tagOk fmt
  | .tfill _ _ fmt _ _ => tagOk fmt
  | .tmovx _ _ imm => elemIdx imm
  | .tmovs _ _ _ imm => elemIdx imm
  | .treshape _ _ _ fmt _ => tagOk fmt
  | .mdrain _ _ _ fmt quant imm rnd inf amax => mdrainOk fmt quant imm rnd inf amax
  | .maccld _ _ imm _ => originOk imm
  | .wdrain _ _ sel => decide (sel.toNat ≤ 1)
  | .vadd _ _ _ _ form rnd _ => formOk form && rndOk rnd
  | .vsub _ _ _ _ form rnd _ => formOk form && rndOk rnd
  | .vmul _ _ _ _ form rnd _ => formOk form && rndOk rnd
  | .vfma _ _ _ _ form _ rnd _ => formOk form && rndOk rnd
  | .vmin _ _ _ _ form => formOk form
  | .vmax _ _ _ _ form => formOk form
  | .vand _ _ _ _ form => formOk form
  | .vor _ _ _ _ form => formOk form
  | .vxor _ _ _ _ form => formOk form
  | .vshl _ _ _ _ form => formOk form
  | .vshr _ _ _ _ form sel => formOk form && decide (sel.toNat ≤ 1)
  | .vcmp _ _ _ _ form _ fmt sel => formOk form && cmpFmt fmt && decide (sel.toNat ≤ 10)
  | .vsel _ _ _ _ form _ => formOk form
  | .vdiv _ _ _ _ form rnd _ => formOk form && rndOk rnd
  | .vcvt td _ _ tc _ fmt _ rnd _ _ => rndOk rnd && cvtFmt fmt && cvtTc fmt td tc
  | .vrcp _ _ rnd _ => rndOk rnd
  | .vsqrt _ _ rnd _ => rndOk rnd
  | .vrand _ _ fmt _ => randFmt fmt
  | .viota _ _ fmt _ _ _ => iotaFmt fmt
  | .vclamp _ _ _ _ _ _ form => formOk form
  | .vrsum _ _ _ fmt rnd _ => rndOk rnd && sumFmt fmt
  | .vrmax _ _ _ fmt => fiFmt fmt
  | .vrmin _ _ _ fmt => fiFmt fmt
  | .vcsum _ _ _ fmt rnd _ => rndOk rnd && sumFmt fmt
  | .vcmax _ _ _ fmt => fiFmt fmt
  | .vcmin _ _ _ fmt => fiFmt fmt
  | .vbcast _ _ _ imm sel => bcastOk sel imm
  | .vshuf _ _ _ form => tileRow form
  | .vscan _ _ sel rnd _ => rndOk rnd && decide (sel.toNat ≤ 2)
  | .vrdot _ _ _ _ fmt rnd _ form => rndOk rnd && dotFmt fmt && tileRow form
  | .skupd _ _ _ _ sel => keySel sel
  | .skqry _ _ _ _ sel _ => keySel sel
  | .skstat _ _ sel => decide (sel.toNat ≤ 2)
  | .gqpush _ _ index imm _ _ => decide (index.toNat ≤ 15) && decide (imm.toNat < 32)
  | .gqpop _ _ index imm _ _ => decide (index.toNat ≤ 15) && decide (imm.toNat < 32)
  | .gqpops _ _ index _ _ => decide (index.toNat ≤ 15)
  | .gqstat _ index imm sel => decide (index.toNat ≤ 15) && decide (imm.toNat < 32) && decide (sel.toNat ≤ 1)
  | .cpygo _ index => decide (index.toNat ≤ 7)
  | .cpystat _ index => decide (index.toNat ≤ 7)
  | .cpycancel _ index => decide (index.toNat ≤ 7)
  | .lkred _ _ _ index => decide (index.toNat ≤ 15)
  | .lkskadd _ _ index => decide (index.toNat ≤ 15)
  | .syarr _ index _ => chanOk index
  | .sywait _ _ index _ => chanOk index
  | .sybar _ index _ _ => chanOk index
  | .sybc _ _ _ index sel _ _ => chanOk index && decide (sel.toNat ≤ 1)
  | .syred _ _ _ index sel _ _ _ => chanOk index && decide (sel.toNat ≤ 8)
  | .sygen _ index => chanOk index
  | .hint k _ => decide (0xF0 ≤ k.toNat) && decide (k.toNat ≤ 0xFE)
  | .qfence imm => imm != 0#32 && decide (imm.toNat < 1024)
  | _ => true

/-- A word that decodes: no reserved field and no reserved value. An event row has no word and is well formed as it stands. -/
def wellFormed (i : Instr) : Bool := fieldsClear i && valuesOk i

end Sys2Proof
end

