-- ==== Sys2Proof/Machine/Elements.lean ====
section
/-! DEFINITION. Tiles as elements (R34, R35): element sizes, rows as lists of element codes, element values, PUT and GET (R138). -/

namespace Sys2Proof.Machine

/-- The element size in bits by format tag (R34). -/
def elemBits (fmt : BitVec 5) : Nat :=
  match fmt.toNat with
  | 1 | 11 | 13 => 64
  | 2 | 10 | 12 => 32
  | 3 | 4 => 16
  | 7 => 4
  | _ => 8

/-- The element size in bytes, 1 for E2M1 (R135). -/
def elemBytes (fmt : BitVec 5) : Nat := (elemBits fmt + 7) / 8

/-- The element count of a row (R158); bytes of a row beyond a whole number of elements hold none (R184 does not speak of them, DESIGN CHOICE, log
entry 75). -/
def elemCount (fmt : BitVec 5) (rowbytes : Nat) : Nat := rowbytes * 8 / elemBits fmt

/-- Row bytes are a whole multiple of the element size (R35). -/
def rowbytesOk (fmt : BitVec 5) (rowbytes : Nat) : Bool := rowbytes % elemBytes fmt == 0

/-- Little-endian bytes as a number (R3). -/
def ofBytes : List Byte → Nat
  | [] => 0
  | b :: bs => b.toNat + 256 * ofBytes bs

/-- The n low bytes of a number, little-endian. -/
def toBytes : Nat → Nat → List Byte
  | 0, _ => []
  | n + 1, v => BitVec.ofNat 8 v :: toBytes n (v / 256)

/-- A list cut into pieces of n (the last may be short); fuel bounds the number of pieces. -/
def chunksGo {α : Type} (n : Nat) : Nat → List α → List (List α)
  | 0, _ => []
  | _, [] => []
  | k + 1, l => l.take n :: chunksGo n k (l.drop n)

def chunks {α : Type} (n : Nat) (l : List α) : List (List α) := chunksGo n l.length l

/-- The element codes of a row, element 0 first (R35). -/
def rowElems (fmt : BitVec 5) (row : List Byte) : List Nat :=
  if fmt = 7#5 then row.flatMap fun b => [b.toNat % 16, b.toNat / 16]
  else if fmt = 13#5 then (chunks 8 row).map fun b => ofBytes b % 2 ^ 48
  else (chunks (elemBytes fmt) row).map ofBytes

/-- A row from its element codes. -/
def packRow (fmt : BitVec 5) (es : List Nat) : List Byte :=
  if fmt = 7#5 then (chunks 2 es).map fun p => BitVec.ofNat 8 (p.headD 0 + 16 * (p.drop 1).headD 0)
  else es.flatMap (toBytes (elemBytes fmt))

/-- A row of FA48 elements has 0 in bits [63:48] of every container, whoever produces it (R35); any other row stays as it is. -/
def cleanRow (fmt : BitVec 5) (row : List Byte) : List Byte :=
  if fmt = 13#5 then (row.zipIdx).map fun p => if p.2 % 8 < 6 then p.1 else 0#8 else row

/-- A row with the code of element n replaced; every other element keeps its bits. -/
def setRowElem (fmt : BitVec 5) (row : List Byte) (n v : Nat) : List Byte :=
  if fmt = 7#5 then packRow fmt ((rowElems fmt row).set n v)
  else row.take (n * elemBytes fmt) ++ toBytes (elemBytes fmt) v ++ row.drop ((n + 1) * elemBytes fmt)

/-- Every row of a tile as element codes. -/
def Tile.elems (t : Tile) : List (List Nat) := t.data.map (rowElems t.fmt)

/-- The element count of a tile's rows. -/
def Tile.count (t : Tile) : Nat := elemCount t.fmt t.rowbytes

/-- A tile with a record and rows of element codes. -/
def mkTile (rows rowbytes : Nat) (fmt : BitVec 5) (quant : BitVec 4) (es : List (List Nat)) : Tile :=
  ⟨rows, rowbytes, fmt, quant, es.map (packRow fmt)⟩

/-- A tile with the record of t and new elements. -/
def Tile.withElems (t : Tile) (es : List (List Nat)) : Tile := mkTile t.rows t.rowbytes t.fmt t.quant es

/-- The floating-point format of a tag. -/
def floatOf (fmt : BitVec 5) : Option FloatFmt :=
  match fmt.toNat with
  | 1 => some fp64
  | 2 => some fp32
  | 3 => some fp16
  | 4 => some bf16
  | 5 => some e4m3
  | 6 => some e5m2
  | 7 => some e2m1
  | 13 => some fa48
  | _ => none

/-- A code read as two's complement of w bits. -/
def signed (w v : Nat) : Int := if v % 2 ^ w < 2 ^ (w - 1) then (v % 2 ^ w : Nat) else (v % 2 ^ w : Nat) - (2 ^ w : Nat)

/-- An integer as a code of w bits. -/
def wrap (w : Nat) (i : Int) : Nat := (i % (2 ^ w : Nat)).toNat

/-- The bounds of an integer format (R39). -/
def intBounds (fmt : BitVec 5) : Int × Int :=
  match fmt.toNat with
  | 8 => (-128, 127)
  | 9 => (0, 255)
  | 10 => (-2 ^ 31, 2 ^ 31 - 1)
  | 11 => (-2 ^ 63, 2 ^ 63 - 1)
  | _ => (-(2 ^ 31 - 1), 2 ^ 31 - 1)

/-- The stored integer of an element of an integer format (R39, R40). -/
def intOf (fmt : BitVec 5) (code : Nat) : Int :=
  match fmt.toNat with
  | 9 => (code : Int)
  | 12 => if code = 2 ^ 31 then -(2 ^ 31 - 1) else signed 32 code
  | _ => signed (elemBits fmt) code

/-- The value of an element without any scale: a floating-point value, or the stored integer (R36, R39). -/
def elemVal (fmt : BitVec 5) (code : Nat) : Val :=
  match floatOf fmt with
  | some f => decodeFloat f (code % 2 ^ (f.fbits + f.ebits + 1))
  | none => ofInt (intOf fmt code)

/-- PUT (R138): the element code that the low bits of a scalar register give. -/
def putElem (fmt : BitVec 5) (x : Word) : Nat :=
  match fmt.toNat with
  | 13 => x.toNat % 2 ^ 48
  | 12 => if x.toNat % 2 ^ 32 = 2 ^ 31 then 2 ^ 31 + 1 else x.toNat % 2 ^ 32
  | _ => x.toNat % 2 ^ elemBits fmt

/-- GET (R138): an element's bits in a scalar register. -/
def getElem (fmt : BitVec 5) (code : Nat) : Word :=
  match fmt.toNat with
  | 8 => BitVec.ofInt 64 (signed 8 code)
  | 10 | 12 => BitVec.ofInt 64 (signed 32 code)
  | 13 => BitVec.ofNat 64 (code % 2 ^ 48)
  | _ => BitVec.ofNat 64 code

/-- The format sets of R182: F, I, B. -/
def isF (fmt : BitVec 5) : Bool := fmt == 1#5 || fmt == 2#5 || fmt == 3#5 || fmt == 4#5
def isI (fmt : BitVec 5) : Bool := fmt == 10#5 || fmt == 11#5
def isB (fmt : BitVec 5) : Bool := fmt == 8#5 || fmt == 9#5
def isFI (fmt : BitVec 5) : Bool := isF fmt || isI fmt

/-- The shape record as TSHR returns it (R126). -/
def Tile.record (t : Tile) : Word :=
  BitVec.ofNat 64 (t.quant.toNat * 2 ^ 20 + t.fmt.toNat * 2 ^ 15 + t.rowbytes * 2 ^ 7 + t.rows)

/-- A scale that may be applied (R51): not zero, negative, subnormal, infinite or NaN. -/
def scaleOk (s : Nat) : Bool := decide (2 ^ 23 ≤ s) && decide (s < 0x7F800000)

/-- The value of an FP32 scale. -/
def scaleVal (s : Nat) : Val := decodeFloat fp32 s

/-- x / scale and x · scale, exactly; NaN and infinities pass (R51). -/
def divScale (v : Val) (s : Nat) : Val :=
  match v, scaleVal s with
  | .fin n p d, .fin _ p' d' => .fin n (p * d') (d * p')
  | v, _ => v

def mulScale (v : Val) (s : Nat) : Val :=
  match v, scaleVal s with
  | .fin n p d, .fin _ p' d' => .fin n (p * p') (d * d')
  | v, _ => v

/-- |x| is at most |y| for values that are not NaN. -/
def absLe (x y : Val) : Bool :=
  match x, y with
  | .inf _, .inf _ => true
  | .inf _, _ => false
  | _, .inf _ => true
  | .fin _ p d, .fin _ p' d' => decide (p * d' ≤ p' * d)
  | _, _ => true

/-- The largest magnitude of the values read, NaN left out, rounded to FP32 toward +∞ (R52). -/
def amaxOf (vs : List Val) : Nat :=
  let m := vs.foldl (fun acc v => if v.isNan then acc else if absLe v acc then acc else v) (.fin false 0 1)
  match m with
  | .inf _ => fp32.infBits
  | .fin _ p d => (roundFin fp32 .up false false p d).code
  | .nan _ => 0

/-- The amax update of a quant register (R52). -/
def updateAmax (q : Word) (m : Nat) : Word :=
  let old := (q.extractLsb' 32 32).toNat
  let lower := (decodeFloat fp32 old).isNan || ltVal (decodeFloat fp32 old) (decodeFloat fp32 m)
  if lower then BitVec.ofNat 64 (m * 2 ^ 32 + q.toNat % 2 ^ 32) else q

end Sys2Proof.Machine
end

