-- ==== Sys2Proof/Machine/Flags.lean ====
section
/-! DEFINITION. The scalar results and exceptions of groups 0x10-0x30 (R93-R103): every integer result, the rounding mode, and what an
FP instruction does with the exceptions it raises. -/

namespace Sys2Proof.Machine

/-- MULH (R93). -/
def mulHigh (u : Bool) (a b : Word) : Word :=
  if u then BitVec.ofNat 64 (a.toNat * b.toNat / 2 ^ 64) else BitVec.ofInt 64 (a.toInt * b.toInt / 2 ^ 64)

/-- DIV and REM for a nonzero divisor (R93, R94). -/
def quotient (u : Bool) (a b : Word) : Word := if u then a / b else a.sdiv b
def remainder (u : Bool) (a b : Word) : Word := if u then a % b else a.srem b

/-- The shift count: xb[5:0] (R93). -/
def shiftCount (b : Word) : Nat := b.toNat % 64

/-- MIN and MAX (R93). -/
def lesser (u : Bool) (a b : Word) : Word := if (if u then a.ule b else a.sle b) then a else b
def greater (u : Bool) (a b : Word) : Word := if (if u then a.ule b else a.sle b) then b else a

def ofBool (b : Bool) : Word := if b then 1#64 else 0#64

/-- CLZ, CTZ and POPC (R96). -/
def leadingZeros (a : Word) : Word := if a = 0#64 then 64#64 else BitVec.ofNat 64 (63 - a.toNat.log2)
def trailingZeros (a : Word) : Word := BitVec.ofNat 64 (((List.range 64).find? fun i => a.getLsbD i).getD 64)
def popCount (a : Word) : Word := BitVec.ofNat 64 ((List.range 64).countP fun i => a.getLsbD i)

/-- SEXT and ZEXT for n from 1 to 64 (R96). -/
def signExtendFrom (n : Nat) (a : Word) : Word := (a <<< (64 - n)).sshiftRight (64 - n)
def zeroExtendFrom (n : Nat) (a : Word) : Word := (a <<< (64 - n)) >>> (64 - n)

/-- The format of a width bit: .S FP32, .D FP64 (R77, R97). -/
def widthFmt (d : Bool) : FloatFmt := if d then fp64 else fp32

/-- An operand under a width: the whole register, or its low 32 bits (R97). -/
def widthVal (d : Bool) (x : Word) : Val := decodeFloat (widthFmt d) (if d then x.toNat else x.toNat % 2 ^ 32)

/-- The rounding mode of a scalar FP instruction: rmode, or s.ps.rnd when rmode is 0b000 (R99). -/
def Core.scalarMode (c : Core) (rmode : BitVec 3) : Mode :=
  match rmode.toNat with
  | 0 => match c.psRnd.toNat with
    | 0 => .nearest
    | 1 => .zero
    | 2 => .down
    | _ => .up
  | 1 => .nearest
  | 2 => .zero
  | 3 => .down
  | _ => .up

/-- R103: an enabled exception is the class-5 fault with s.faddr 0 and nothing written; otherwise xd and the flags are written. -/
def Core.fpWrite (c : Core) (op : BitVec 8) (xd : BitVec 6) (r : Word) (f : FpFlags) : Except Exc Core :=
  match enabledFault c.fptrap [(0, f)] with
  | some (detail, _) => .error ⟨5, detail, 0#64, op.setWidth 64⟩
  | none => .ok ((c.orFlags f).setX xd r)

/-- An exact result rounded to the width's format and written (R97, R99). -/
def Core.fpRound (c : Core) (op : BitVec 8) (xd : BitVec 6) (width : Bool) (rmode : BitVec 3) (r : Val × FpFlags) :
    Except Exc Core :=
  let o := roundVal (widthFmt width) (c.scalarMode rmode) false r.1
  c.fpWrite op xd (BitVec.ofNat 64 o.code) (o.flags ||| r.2)

/-- The zero sign of exact sums: minus toward −∞ (R37). -/
def Core.downward (c : Core) (rmode : BitVec 3) : Bool := c.scalarMode rmode == .down

end Sys2Proof.Machine
end

