-- ==== Sys2Proof/Config.lean ====
section
/-! DEFINITION. What the spec leaves to the implementation or leaves open: constants without a body, so that nothing can be
proved of their values. Each is named in the assumption log. -/

namespace Sys2Proof.Config

/-- Clocks that pass while the turn with this number is taken (timing is outside the model, DESIGN CHOICE, log entry 2). -/
opaque elapsed : Nat → Nat

/-- The choice of a faithful FP32 result between its two neighbours, by opcode and input (R188, DESIGN CHOICE, log entry 11). -/
opaque faithfulUp : BitVec 8 → BitVec 32 → Bool

/-- A free choice of the dispatcher or of the firmware, by the number of the draw (log entries 15, 16 and 17). -/
opaque choice : Nat → Nat

/-- Virtual address of the firmware's default handler table in the shared region (R471, DESIGN CHOICE, log entry 14). -/
opaque defaultTable : BitVec 64

/-- Bytes that the firmware produces and the spec does not give: signatures, digests, measurements, counters (DESIGN CHOICE, log entry 17). -/
opaque firmwareByte : Nat → Nat → BitVec 8

/-- Whether the firmware accepts the signature of an update region with these bytes (R446, DESIGN CHOICE, log entry 17). -/
opaque signatureValid : List (BitVec 8) → Bool

/-- s.faddr of a fault for which the spec states none, by the number of the draw (DESIGN CHOICE, log entry 21). -/
opaque faultAddress : Nat → BitVec 64

/-- The package's fused rollback count, the version of an update region's image, and whether it claims to replace a ROM routine (R446, log
entry 17). -/
opaque rollbackCount : Nat
opaque imageVersion : List (BitVec 8) → Nat
opaque replacesRom : List (BitVec 8) → Bool

/-- The set of a line within its cluster-cache slice and within its L2 slice (R359, R464, DESIGN CHOICE, log entry 42). -/
opaque clusterSet : Nat → Nat
opaque l2Set : Nat → Nat

/-- The set of a line in the instruction cache (R340, DESIGN CHOICE, log entry 42). -/
opaque codeSet : Nat → Nat

/-- The card limit of the firmware configuration in watts (R448, DESIGN CHOICE, log entry 2). -/
opaque cardLimit : Nat

/-- The HBM that the firmware keeps for itself, which the host does not reach through CXL.mem (R433, DESIGN CHOICE, log entry 57). -/
opaque hdmReserve : Nat

/-- Byte i of the firmware's signed report of measurements over a nonce, and the report's length (R447, DESIGN CHOICE, log entry
17). -/
opaque signedReport : List (BitVec 8) → List (List (BitVec 8)) → Nat → BitVec 8
opaque reportLength : List (List (BitVec 8)) → Nat

/-- Byte i of the digest of an update region (R446, R447, DESIGN CHOICE, log entry 17). -/
opaque regionDigest : List (BitVec 8) → Nat → BitVec 8

end Sys2Proof.Config
end

