-- ==== Sys2Proof/Machine/Mem.lean ====
section
/-! DEFINITION. Memory as sorted bytes, translation (R360-R385), the levels of 14_memories_and_coherence.md (R368-R377) and the reads,
fills, stores, write-backs, acquires and releases built on them (11_memory_model.md). -/

namespace Sys2Proof.Machine

/-- The byte listed at an address. -/
def lookup : Memory → Nat → Option Byte
  | [], _ => none
  | (k, b) :: rest, a => if k = a then some b else if a < k then none else lookup rest a

/-- Lists a byte at an address, in order. -/
def insertByte : Memory → Nat → Byte → Memory
  | [], a, b => [(a, b)]
  | (k, v) :: rest, a, b =>
    if a < k then (a, b) :: (k, v) :: rest
    else if k = a then (a, b) :: rest
    else (k, v) :: insertByte rest a b

/-- Removes an address. -/
def eraseByte : Memory → Nat → Memory
  | [], _ => []
  | (k, v) :: rest, a => if k = a then rest else if a < k then (k, v) :: rest else (k, v) :: eraseByte rest a

/-- A memory whose unlisted bytes read 0 (DESIGN CHOICE, log entry 5). -/
def readByte (m : Memory) (a : Nat) : Byte := (lookup m a).getD 0#8

/-- Writing 0 removes the entry, so that equal memories are equal lists. -/
def writeByte (m : Memory) (a : Nat) (b : Byte) : Memory := if b = 0#8 then eraseByte m a else insertByte m a b

def writeBytes : Memory → Nat → List Byte → Memory
  | m, _, [] => m
  | m, a, b :: bs => writeBytes (writeByte m a b) (a + 1) bs

def readBytes (m : Memory) (a n : Nat) : List Byte := (List.range n).map fun i => readByte m (a + i)

/-- Lists bytes one after another (a memory without a default). -/
def insertBytes : Memory → Nat → List Byte → Memory
  | m, _, [] => m
  | m, a, b :: bs => insertBytes (insertByte m a b) (a + 1) bs

/-- Addresses strictly rising from a bound. -/
def risingFrom : Nat → Memory → Bool
  | _, [] => true
  | lo, (k, _) :: rest => decide (lo ≤ k) && risingFrom (k + 1) rest

/-- The canonical form: addresses strictly rising, no entry equal to the 0 that an unlisted byte reads as. -/
def Memory.wf (m : Memory) : Bool := risingFrom 0 m && m.all fun p => p.2 != 0#8

/-- The canonical form of a memory without a default. -/
def Memory.rising (m : Memory) : Bool := risingFrom 0 m

/-! ### Addresses -/

/-- Bytes of local HBM (R361). -/
def hbmBytes : Nat := 287999983616

/-- The shared region (R364). -/
def shared (va : Nat) : Bool := va / 2 ^ 48 % 16 == 15

/-- The tag of a byte: ASID (0 in the shared region, R363, R364) and VA. -/
def tagOf (asid va : Nat) : Nat := (if shared va then 0 else asid) * 2 ^ 52 + va

def tagVa (tag : Nat) : Nat := tag % 2 ^ 52
def tagAsid (tag : Nat) : Nat := tag / 2 ^ 52

/-- The tag of the 128-byte line of a tagged byte. -/
def lineTag (tag : Nat) : Nat := tag - tag % 128

/-- The cluster of a compute core by its logical number (R17); a badger core has none (R465). -/
def clusterOf (core : Nat) : Option Nat :=
  if core < 256 then
    let r := core / 16
    let c := core % 16
    some (4 * (2 * (r / 4) + c / 8) + 2 * ((r % 4) / 2) + (c % 8) / 4)
  else none

/-- The number of a core within its cluster, row offset then column offset (R359, R464). -/
def coreInCluster (core : Nat) : Nat := 4 * (core / 16 % 2) + core % 4

/-- The cluster-cache slice of a line (R464). -/
def sliceOf (tag : Nat) : Nat :=
  let va := tagVa tag
  (va / 2 ^ 7 % 8) ^^^ (va / 2 ^ 10 % 8) ^^^ (va / 2 ^ 13 % 8) ^^^ (tagAsid tag % 8)

/-- The memory-side translation unit of an access (R380). -/
def unitOf (tag : Nat) : Nat :=
  let va := tagVa tag
  (va / 2 ^ 16 % 16) ^^^ (va / 2 ^ 20 % 16) ^^^ (va / 2 ^ 24 % 16) ^^^ (tagAsid tag % 16)

/-- The L2 slice of a line, by the fixed hash of R464; its die and its L2 stop on that die. -/
def l2Slice (tag : Nat) : Nat :=
  let t := tagVa tag / 2 ^ 7 ^^^ tagAsid tag * 2 ^ 33
  (t % 2 ^ 15 + t / 2 ^ 15 % 2 ^ 15 + t / 2 ^ 30 % 2 ^ 15) % 96

def l2Die (tag : Nat) : Nat := l2Slice tag / 48
def l2Stop (tag : Nat) : Nat := l2Slice tag % 48 / 2

/-- The memory controller of a local HBM offset, the offset's address there, and the offset of a controller's address (R361). -/
def controllerOf (o : Nat) : Nat := o / 2 ^ 12 % 16
def controllerAddress (o : Nat) : Nat := o / 2 ^ 16 * 2 ^ 12 + o % 2 ^ 12
def controllerOffset (ctrl a : Nat) : Nat := a / 2 ^ 12 * 2 ^ 16 + ctrl * 2 ^ 12 + a % 2 ^ 12

/-! ### Translation -/

/-- A table level's index field: its place, the table's entries, and the page size of a leaf (R382). -/
def levelIndex (level va : Nat) : Nat :=
  match level with
  | 4 => va / 2 ^ 40 % 4096
  | 3 => va / 2 ^ 31 % 512
  | 2 => va / 2 ^ 21 % 1024
  | _ => va / 2 ^ 16 % 32

def pageLg (level : Nat) : Nat :=
  match level with
  | 3 => 31
  | 2 => 21
  | _ => 16

/-- log2 of the alignment of the table below a level. -/
def tableLg (level : Nat) : Nat :=
  match level with
  | 4 => 12
  | 3 => 13
  | _ => 8

/-- MALFORMED of R383 and R384. -/
def malformedEntry (level : Nat) (e : Word) : Bool :=
  let leaf := e.getLsbD 1
  let addr := (e.extractLsb' 8 40).toNat * 256
  e.getLsbD 6 || (leaf && level == 4) || (!leaf && level == 1) ||
    (!leaf && e.extractLsb' 2 6 != 0#6) ||
    (if leaf then addr % 2 ^ pageLg level != 0 else addr % 2 ^ tableLg level != 0)

/-- What one level of a walk finds (R384). -/
inductive WalkStep where
  | absent (malformed : Bool)
  | leaf (l : Leaf)
  | table (addr : Nat)
deriving DecidableEq, Repr

/-- One level of a walk: the entry of the table at t (R384). -/
def walkEntry (hbm : Memory) (asid colour level t va : Nat) : WalkStep :=
  let e : Word := BitVec.ofNat 64 (ofBytes (readBytes hbm (t + 8 * levelIndex level va) 8))
  if !e.getLsbD 0 then .absent false
  else if malformedEntry level e then .absent true
  else
    let addr := (e.extractLsb' 8 40).toNat * 256
    if e.getLsbD 1 then
      let lg := pageLg level
      let pa := addr + va % 2 ^ lg
      let kind := pa / 2 ^ 46
      if kind = 3 ∨ (kind = 0 ∧ hbmBytes < addr + 2 ^ lg) ∨ (asid = 0 ∧ colour < 16 ∧ !e.getLsbD (48 + colour)) then .absent false
      else
        let tgt : Target := if kind = 0 then .local pa else if kind = 1 then .peer else .host (pa % 2 ^ 46)
        .leaf ⟨tgt, e.getLsbD 2, e.getLsbD 3, e.getLsbD 4, e.getLsbD 5, e.getLsbD 7, lg⟩
    else .table addr

/-- The levels from a table down (R384). -/
def walkFrom (hbm : Memory) (asid colour : Nat) : List Nat → Nat → Nat → Option Leaf
  | [], _, _ => none
  | level :: rest, t, va =>
    match walkEntry hbm asid colour level t va with
    | .absent _ => none
    | .leaf l => some l
    | .table t' => walkFrom hbm asid colour rest t' va

/-- An ASID's context: its colour and the root of its tables (R381). -/
structure AsidContext where
  colour : BitVec 4
  root : Nat
deriving DecidableEq, Repr

/-- The granules of each controller that the firmware keeps (R361) are its last 553, from this granule on: 537 for the hotness table of the
controller, and at controller 0 the last 16 for the ASID context table (which granules, DESIGN CHOICE, log entry 25). -/
def firmwareGranule : Nat := 4394531 - 553

/-- The place of an ASID's entry in the context table of 4096 entries of 16 bytes (R381). -/
def contextAddress (asid : Nat) : Nat := controllerOffset 0 ((firmwareGranule + 537) * 4096 + 16 * asid)

/-- The place of the 16-bit counter of a region and an octant in a controller's hotness table (R391). -/
def hotAddress (ctrl region octant : Nat) : Nat := controllerOffset ctrl (firmwareGranule * 4096 + 2 * (8 * region + octant))

/-- The entry of an ASID in the context table (R381); none is an entry with valid 0. -/
def Card.context (k : Card) (asid : Nat) : Option AsidContext :=
  let lo := ofBytes (readBytes k.hbm (contextAddress asid) 8)
  if asid < 4096 ∧ lo % 2 = 1 then
    some ⟨BitVec.ofNat 4 (ofBytes (readBytes k.hbm (contextAddress asid + 8) 8)), lo / 2 ^ 15 % 2 ^ 33 * 2 ^ 15⟩
  else none

/-- The firmware writes a context entry: an ASID's colour and root, valid (R381). -/
def Card.setContext (k : Card) (asid colour root : Nat) : Card :=
  { k with hbm := writeBytes k.hbm (contextAddress asid) (toBytes 8 (root + 1) ++ toBytes 8 (colour % 16)) }

/-- An ASID is assigned no longer: its entry reads 0. -/
def Card.dropContext (k : Card) (asid : Nat) : Card :=
  { k with hbm := writeBytes k.hbm (contextAddress asid) (List.replicate 16 0#8) }

/-- Tables as a unit's walker sees them: its cached non-leaf entries stand over memory (R380, R384). -/
def Card.walkerView (k : Card) (unit : Nat) : Memory :=
  (k.walkCache.filter fun w => w.unit == unit).foldl (fun m w => writeBytes m w.addr (toBytes 8 w.entry.toNat)) k.hbm

/-- A walk for (ASID, VA) on behalf of a colour; 16 stands for a host access, which is checked against no colour (R384, R466). -/
def Card.walk (k : Card) (asid colour va : Nat) : Option Leaf :=
  let a := if shared va then 0 else asid
  match k.context a with
  | none => none
  | some c =>
    if a ≠ 0 ∧ c.colour.toNat ≠ colour then none
    else walkFrom (k.walkerView (unitOf (tagOf asid va))) a colour [4, 3, 2, 1] c.root va

/-- Whether the levels from a table down stop at a malformed entry (R384). -/
def malformedFrom (hbm : Memory) (asid colour : Nat) : List Nat → Nat → Nat → Bool
  | [], _, _ => false
  | level :: rest, t, va =>
    match walkEntry hbm asid colour level t va with
    | .absent m => m
    | .leaf _ => false
    | .table t' => malformedFrom hbm asid colour rest t' va

/-- A walk that finds no translation counts the malformed entry that it stops at (R384). -/
def Card.countMalformed (k : Card) (asid colour va : Nat) : Card :=
  let a := if shared va then 0 else asid
  match k.context a with
  | none => k
  | some c =>
    if (a = 0 ∨ c.colour.toNat = colour) ∧ malformedFrom (k.walkerView (unitOf (tagOf asid va))) a colour [4, 3, 2, 1] c.root va = true then
      { k with malformed := k.malformed + 1 }
    else k

/-- The translation that a memory-side unit gives: from its TLB when it holds the page, else by a walk (R380). -/
def Card.translate (k : Card) (asid colour va : Nat) : Option Leaf :=
  let a := if shared va then 0 else asid
  match k.unitTlb.find? fun e => e.asid == a && e.colour == colour && e.page == va / 2 ^ e.leaf.lg && e.unit == unitOf (tagOf asid va) with
  | some e =>
    let off := va % 2 ^ e.leaf.lg
    some { e.leaf with target := match e.leaf.target with
      | .local pa => .local (pa + off)
      | .peer => .peer
      | .host h => .host (h + off) }
  | none => k.walk asid colour va

/-- What an access needs (R385); a query of a sketch is a load of what is readable and writable (R228). -/
inductive Access where
  | fetch
  | load
  | query
  | store
  | atomic
deriving DecidableEq, Repr

def Access.allowed (a : Access) (r w x : Bool) : Bool :=
  match a with
  | .fetch => x
  | .load => r
  | .query => r && w
  | .store => w
  | .atomic => r && w

/-- The class-3 details of a missing page and of a missing permission (R114, R385); atomics report as stores. -/
def Access.absentDetail : Access → Nat
  | .fetch => 0
  | .load => 2
  | .query => 2
  | _ => 4

def Access.deniedDetail : Access → Nat
  | .fetch => 1
  | .load => 3
  | .query => 3
  | _ => 5

/-- The home of a byte: the card's own translation, and for a peer page the peer's for the same ASID, VA and colour (R366). -/
inductive Home where
  | local (pa : Nat)
  | peer (pa : Nat)
  | host (addr : Nat)
deriving DecidableEq, Repr

/-- The colour that a request of a partition carries across the bridge: that of the peer partition bound to it, its own without a binding
(R366, R437; DEDUCED, log entry 56). -/
def Card.boundColour (k : Card) (colour : Nat) : Nat :=
  ((k.partitions.find? fun p => p.colour == colour).bind Partition.peerColour).getD colour

/-- The peer's mapping of a page that a request carries across the bridge: it must be local there (R366). -/
def State.peerHome (s : State) (asid colour va : Nat) : Option (Nat × Leaf) :=
  match s.peer.translate asid (s.card.boundColour colour) va with
  | some l => match l.target with
    | .local pa => some (pa, l)
    | _ => none
  | none => none

def State.homeOf (s : State) (asid colour va : Nat) : Option Home :=
  match s.card.translate asid colour va with
  | none => none
  | some l => match l.target with
    | .local pa => some (.local pa)
    | .host h => some (.host h)
    | .peer => (s.peerHome asid colour va).map fun p => .peer p.1

/-- The class-3 detail of an access to one byte under the card's own tables, or none when they permit it (R379, R385). -/
def State.ownAccess (s : State) (a : Access) (asid colour : Nat) (sup : Bool) (va : Nat) : Option Nat :=
  let need (r w x su : Bool) : Option Nat := if (su && !sup) || !a.allowed r w x then some a.deniedDetail else none
  match s.core.tlb.find? fun e => e.asid == (if shared va then 0 else asid) && e.colour == colour && e.page == va / 2 ^ e.lg with
  | some e => need e.r e.w e.x e.sup
  | none =>
    match s.card.translate asid colour va with
    | none => some a.absentDetail
    | some l => need l.r l.w l.x l.sup

/-- The detail of an access that fails at the peer, which maps the page itself (R366). -/
def State.peerAccess (s : State) (a : Access) (asid colour va : Nat) : Option Nat :=
  if (s.card.translate asid colour va).map Leaf.target = some .peer then
    match s.peerHome asid colour va with
    | none => some a.absentDetail
    | some (_, l) => if a.allowed l.r l.w l.x then none else some a.deniedDetail
  else none

/-- The same for an access that goes on to its home: a load or an atomic to a page of the peer is checked there too while the bridge is up
(R366, R443); a store is not, and one that fails there is dropped when it performs. -/
def State.checkAccess (s : State) (a : Access) (asid colour : Nat) (sup : Bool) (va : Nat) : Option Nat :=
  match s.ownAccess a asid colour sup va with
  | some d => some d
  | none =>
    if a ≠ .store ∧ s.card.bridge.up = true then s.peerAccess a asid colour va else none

/-! ### Objects -/

/-- Whether an address lies in an object (R300, R376). The stride of an object of one row has no part in it (DEDUCED, log entry 43). -/
def ObjEntry.holds (o : ObjEntry) (va : Nat) : Bool :=
  decide (o.base ≤ va) &&
    (if o.rows = 1 then decide (va - o.base < o.rowbytes)
     else decide ((va - o.base) % o.stride < o.rowbytes) && decide ((va - o.base) / o.stride < o.rows))

/-- The class of a byte for a core of a cluster (R281, R465). -/
def State.classOf (s : State) (cl : Option Nat) (remote : Bool) (va : Nat) : ObjClass :=
  let decl := match cl with
    | none => none
    | some k => ((s.card.clusters.toList.getD k ⟨[], 0, 0, [], []⟩ : Cluster).objects.find? fun (o : ObjEntry) => o.holds va).map ObjEntry.cls
  match decl with
  | some .priv => .priv
  | some .readonly => .readonly
  | some .system => .system
  | some .cluster => if remote then .system else .cluster
  | some .package => if remote then .system else .package
  | none => if remote then .system else .package

/-! ### Homes -/

/-- The colour under which L2 translates a line of its own: its ASID's, none for ASID 0 (R380). -/
def Card.lineColour (k : Card) (line : Nat) : Nat :=
  if tagAsid line = 0 then 16 else ((k.context (tagAsid line)).map fun c => c.colour.toNat).getD 0

/-- The line that L2 holds under a tag. -/
def Card.l2Find (k : Card) (line : Nat) : Option L2Line := k.l2.find? fun l => l.tag == line

/-- A byte that L2 holds: one of its line's fill mask (R368). -/
def Card.l2Byte (k : Card) (tag : Nat) : Option Byte :=
  match k.l2Find (lineTag tag) with
  | none => none
  | some l => if l.fmask.getLsbD (tag % 128) then some (l.data.getD (tag % 128) 0#8) else none

/-- The byte at its home (R280): L2 over HBM of the home card. -/
def Card.homeByte (k : Card) (tag pa : Nat) : Byte := (k.l2Byte tag).getD (readByte k.hbm pa)

/-- A line leaves L2: its dirty bytes go to HBM through the translation of its tag (R375, R380). A line whose page is not mapped to local
HBM stays. -/
def Card.evictL2 (k : Card) (line : Nat) : Card :=
  match k.l2Find line with
  | none => k
  | some l =>
    if l.dmask = 0 then { k with l2 := k.l2.erase l }
    else match (k.translate (tagAsid line) (k.lineColour line) (tagVa line)).map Leaf.target with
      | some (.local pa) =>
        { k with
          hbm := (List.range 128).foldl (fun m i => if l.dmask.getLsbD i then writeByte m (pa + i) (l.data.getD i 0#8) else m) k.hbm
          l2 := k.l2.erase l }
      | _ => k

/-! ### Migration (R387) -/

def Card.entryAt (k : Card) (a : Nat) : Word := BitVec.ofNat 64 (ofBytes (readBytes k.hbm a 8))
def Card.putEntryAt (k : Card) (a : Nat) (e : Word) : Card := { k with hbm := writeBytes k.hbm a (toBytes 8 e.toNat) }

/-- Bytes become 0. -/
def clearBytes (m : Memory) (a n : Nat) : Memory := m.filter fun c => decide (c.1 < a) || decide (a + n ≤ c.1)

/-- Whether a tagged byte lies in the page of a migration. -/
def Migration.holds (m : Migration) (tag : Nat) : Bool :=
  tagAsid tag == m.asid && decide (m.va ≤ tagVa tag) && decide (tagVa tag < m.va + 2 ^ m.lg)

/-- The page's entries leave the memory-side TLBs. -/
def Card.dropPage (k : Card) (m : Migration) : Card :=
  { k with unitTlb := k.unitTlb.filter fun e =>
      !(e.asid == m.asid && decide (e.page * 2 ^ e.leaf.lg < m.va + 2 ^ m.lg) && decide (m.va < (e.page + 1) * 2 ^ e.leaf.lg)) }

/-- The bytes of a page of HBM take another place (step 3). -/
def copyPage (m : Memory) (src dst n : Nat) : Memory :=
  let moved := m.filter fun c => decide (src ≤ c.1) && decide (c.1 < src + n)
  moved.foldl (fun m c => writeByte m (c.1 - src + dst) c.2) (clearBytes m dst n)

/-- The dirty bytes of the page that L2 holds go to HBM, and the lines stay in L2 (step 2). -/
def Card.cleanPage (k : Card) (m : Migration) : Card :=
  let dirty (l : L2Line) : Bool := m.holds l.tag && l.dmask != 0#128
  let write (h : Memory) (l : L2Line) : Memory := (List.range 128).foldl (fun h i =>
    if l.dmask.getLsbD i then writeByte h (m.old + (tagVa l.tag - m.va) + i) (l.data.getD i 0#8) else h) h
  { k with hbm := (k.l2.filter dirty).foldl write k.hbm, l2 := k.l2.map fun l => if dirty l then { l with dmask := 0 } else l }

/-- A leaf with another address, and mig as given. -/
def moveLeaf (e : Word) (pa : Nat) (mig : Bool) : Word :=
  (e &&& ~~~(0xFFFFFFFFFF80#64)) ||| BitVec.ofNat 64 (pa + if mig then 128 else 0)

/-- The next of the four steps of R387; after them, none. -/
def Card.migrationStep (k : Card) (m : Migration) : Card :=
  let rewrite (pa : Nat) (mig : Bool) : Card := (k.putEntryAt m.leaf (moveLeaf (k.entryAt m.leaf) pa mig)).dropPage m
  match m.steps with
  | 0 => rewrite m.old true
  | 1 => k.cleanPage m
  | 2 => { k with hbm := copyPage k.hbm m.old m.new (2 ^ m.lg) }
  | 3 => rewrite m.new false
  | _ => k

/-- A migration has done its next step. -/
def Card.stepMigration (k : Card) (m : Migration) : Card :=
  let t := k.migrationStep m
  { t with migrations := t.migrations.map fun n => if n.fn = m.fn then { n with steps := m.steps + 1 } else n }

/-- Every step that is left of a migration. -/
def Card.finishMigration (k : Card) (m : Migration) : Card :=
  ((List.range 4).drop m.steps).foldl (fun k i => k.stepMigration { m with steps := i }) k

/-! ### L2 -/

/-- A line whose page is under migration (R387): its leaf has mig. -/
def Card.lockedLine (k : Card) (line : Nat) : Bool :=
  ((k.translate (tagAsid line) (k.lineColour line) (tagVa line)).map Leaf.mig).getD false

/-- The set of a line in its L2 slice of 1024 sets of 16 ways (R359; which one, DESIGN CHOICE, log entry 42). -/
def l2Set (tag : Nat) : Nat := Config.l2Set tag % 1024

/-- The lines of the set of a line, once all its 16 ways are taken. -/
def Card.fullSet (k : Card) (line : Nat) : Option (List L2Line) :=
  if k.l2.length < 16 then none
  else
    let set := k.l2.filter fun l => l2Slice l.tag == l2Slice line && l2Set l.tag == l2Set line
    if set.length < 16 then none else some set

/-- The line that leaves a full set for another (R359): the least recently used one, but no dirty line of a page under migration (R375). -/
def Card.l2Victim (k : Card) (line : Nat) : Option L2Line :=
  (k.fullSet line).bind fun set => set.reverse.find? fun l => l.dmask == 0 || !k.lockedLine l.tag

/-- A full set of which no line may leave holds a fill until the migration that locks it has ended (R388): the fill then stands in the same
turn as the steps that are left of it. -/
def Card.l2Unlocked (k : Card) (line : Nat) : Card :=
  match k.fullSet line, k.l2Victim line with
  | some set, none => (k.migrations.filter fun m => set.any fun l => m.holds l.tag).foldl Card.finishMigration k
  | _, _ => k

/-- Room for a line in its set. -/
def Card.l2Room (k : Card) (line : Nat) : Card :=
  match (k.l2Unlocked line).l2Victim line with
  | some v => (k.l2Unlocked line).evictL2 v.tag
  | none => k

/-- A line becomes the most recently used one of L2, in its own way or in a new one; a set that has been mapped out keeps none (R445). -/
def Card.l2Put (k : Card) (l : L2Line) : Card :=
  let k := if (k.l2Find l.tag).isSome then k else k.l2Room l.tag
  let k : Card := { k with l2 := l :: k.l2.filter fun m => m.tag != l.tag }
  if !k.service.mappedOut.isEmpty && k.service.mappedOut.contains (l2Slice l.tag, l2Set l.tag) && !(l.dmask != 0 && k.lockedLine l.tag)
  then k.evictL2 l.tag else k

/-- A counter of a controller's hotness table (R391). -/
def Card.hotCount (k : Card) (ctrl region octant : Nat) : Nat := ofBytes (readBytes k.hbm (hotAddress ctrl region octant) 2)

def Card.setHot (k : Card) (ctrl region octant count : Nat) : Card :=
  { k with hbm := writeBytes k.hbm (hotAddress ctrl region octant) (toBytes 2 count) }

/-- A controller counts an HBM read in the requester's octant, to at most 0xFFFF; requests of the peer and the host count in none (R390,
R391). -/
def Card.countRead (k : Card) (pa : Nat) (octant : Option Nat) : Card :=
  match octant with
  | none => k
  | some o =>
    let m := controllerOf pa
    let r := pa / 2 ^ 21
    k.setHot m r o (min 0xFFFF (k.hotCount m r o + 1))

/-- The bytes of a line that a read of n bytes meets, from its first one on. -/
def readMask (tag n : Nat) : BitVec 128 := BitVec.ofNat 128 (2 ^ min n (128 - tag % 128) - 1) <<< (tag % 128)

/-- L2 holds the line of a byte after a read of n of its bytes: when one of them is outside the fill mask, the bytes outside it come from HBM
(R375, R391). -/
def Card.fetchL2 (k : Card) (tag pa n : Nat) (octant : Option Nat) : Card :=
  let line := lineTag tag
  let base := pa - tag % 128
  match k.l2Find line with
  | some l =>
    if readMask tag n &&& ~~~l.fmask = 0#128 then k.l2Put l
    else (k.countRead base octant).l2Put { l with
      fmask := BitVec.allOnes 128
      data := (List.range 128).map fun i => if l.fmask.getLsbD i then l.data.getD i 0#8 else readByte k.hbm (base + i) }
  | none => (k.countRead base octant).l2Put ⟨line, BitVec.allOnes 128, 0, readBytes k.hbm base 128⟩

def State.readHome (s : State) (tag : Nat) : Home → Byte
  | .local pa => s.card.homeByte tag pa
  | .peer pa => s.peer.homeByte tag pa
  | .host h => readByte s.host.mem h

/-- L2 merges a byte into its line, which it allocates with a fill mask when it is not there (R284, R375). The host bit of the line is
clear after a merge: its BISnp has been answered, since a turn that merges there does not happen before (R434, State.guarded). -/
def Card.mergeByte (k : Card) (tag : Nat) (b : Byte) : Card :=
  let k := if k.hostLines.contains (lineTag tag) then { k with hostLines := k.hostLines.filter fun l => l != lineTag tag } else k
  let l := (k.l2Find (lineTag tag)).getD ⟨lineTag tag, 0, 0, List.replicate 128 0#8⟩
  let bit : BitVec 128 := 1#128 <<< (tag % 128)
  k.l2Put { l with fmask := l.fmask ||| bit, dmask := l.dmask ||| bit, data := l.data.set (tag % 128) b }

/-- The side log in which a byte lies, under whatever tag: its controller, its colour, the offset (R332). -/
def Card.logPlace (k : Card) (tag : Nat) : Option (Nat × Nat × Nat) :=
  if k.partitions.isEmpty then none
  else match (k.translate (tagAsid tag) (k.lineColour (lineTag tag)) (tagVa tag)).map Leaf.target with
    | some (.local pa) => k.partitions.findSome? fun p =>
        if p.logs ≤ pa ∧ pa < p.logs + 2 ^ 24 then some ((pa - p.logs) / 2 ^ 20, p.colour, (pa - p.logs) % 2 ^ 20) else none
    | _ => none

/-- A write of software into a side log (R333): one to the doorbell line rings, and of a pending entry's header only state 0b11 is
accepted; every other byte is read-only. -/
def Card.writeLog (k : Card) (tag ctrl colour off : Nat) (b : Byte) : Card :=
  if off < 128 then
    let k := if 64 ≤ off ∧ off < 72 then k.mergeByte tag b else k
    { k with sideLogs := k.sideLogs.map fun l => if l.ctrl = ctrl ∧ l.colour = colour then { l with rung := true } else l }
  else if b.toNat % 4 = 3 ∧ (k.sideLogs.any fun l => l.ctrl == ctrl && l.colour == colour &&
      l.entries.any fun e => e.state == .pending && e.off == off) = true then
    let mark (e : LogEntry) : LogEntry := if e.state = .pending ∧ e.off = off then { e with marked := true } else e
    let k := k.mergeByte tag 3#8
    { k with sideLogs := k.sideLogs.map fun l => if l.ctrl = ctrl ∧ l.colour = colour then { l with entries := l.entries.map mark } else l }
  else k

/-- A write of software, of a copy or of the host reaches L2. -/
def Card.mergeL2 (k : Card) (tag : Nat) (b : Byte) : Card :=
  match k.logPlace tag with
  | none => k.mergeByte tag b
  | some (ctrl, colour, off) => k.writeLog tag ctrl colour off b

def State.writeHome (s : State) (tag : Nat) (b : Byte) : Home → State
  | .local _ => { s with card := s.card.mergeL2 tag b }
  | .peer _ => { s with peer := s.peer.mergeL2 tag b }
  | .host h => { s with host := { s.host with mem := writeByte s.host.mem h b } }

/-- The pieces of a range in each 128-byte line that it meets: an address and a number of bytes. -/
def linePieces (va n : Nat) : List (Nat × Nat) :=
  if n = 0 then []
  else (List.range ((va + n - 1) / 128 - va / 128 + 1)).map fun i =>
    let a := max va ((va / 128 + i) * 128)
    (a, min (va + n) ((va / 128 + i + 1) * 128) - a)

/-- The byte at its home for an ASID, colour and VA; an absent translation reads 0 (every access is checked before). -/
def State.homeValue (s : State) (asid colour va : Nat) : Byte :=
  match s.homeOf asid colour va with
  | some h => s.readHome (tagOf asid va) h
  | none => 0#8

end Sys2Proof.Machine
end

