-- ==== Sys2Proof/Machine/Ring.lean ====
section
/-! DEFINITION. What every part of a card shares with the driver: a function's registers (R435), host memory, the service counters, and the
event ring (R438). -/

namespace Sys2Proof.Machine

/-- Eight bytes of a word. -/
def wordBytes (v : Nat) : List Byte := toBytes 8 v

/-- s.cause (R310). -/
def causeWord (x : Exc) : Word := BitVec.ofNat 64 (x.cls * 64 + x.detail)

def State.fn (s : State) (n : Nat) : Function := s.card.functions.toList.getD n Function.reset

def State.setFn (s : State) (n : Nat) (f : Function) : State :=
  if h : n < 17 then { s with card := { s.card with functions := s.card.functions.set n f h } } else s

/-- Host memory takes bytes. -/
def State.putHost (s : State) (a : Nat) (bs : List Byte) : State := { s with host := { s.host with mem := writeBytes s.host.mem a bs } }

def State.hostWord (s : State) (a : Nat) : Nat := ofBytes (readBytes s.host.mem a 8)

def State.mapService (s : State) (f : Service → Service) : State := { s with card := { s.card with service := f s.card.service } }

/-- An event of a function's ring (R438): the record's words are s.epc (0), s.cause, s.faddr, s.finfo; a full ring drops it. -/
def State.pushEvent (s : State) (n kind colour launch : Nat) (x : Exc) : State :=
  let f := s.fn n
  let lg := (f.lgsize.extractLsb' 8 4).toNat
  if (f.evprod - f.evcons).toNat ≥ 2 ^ lg then s.mapService fun v => { v with lostEvents := v.lostEvents + 1 }
  else
    let a := f.evbase.toNat + 64 * (f.evprod.toNat % 2 ^ lg)
    let ws := [kind + colour * 2 ^ 8 + launch * 2 ^ 16, 0, (causeWord x).toNat, x.faddr.toNat, x.finfo.toNat, 0, 0, 0]
    (s.putHost a (ws.flatMap wordBytes)).setFn n { f with evprod := f.evprod + 1#32 }

/-- The launch id of a strand word (R25). -/
def strandLaunch (w : Word) : BitVec 16 := w.extractLsb' 32 16

/-- The mesh stop of a core: that of its cluster, or of a badger core's controller (R15, R426, R427). -/
def stopOf (core : Nat) : Nat := (clusterOf core).getD (32 + (core - 256) / 2)

/-- A packet leaves: its number is the next one of its card (R427). -/
def State.countPacket (s : State) : State := { s with card := { s.card with packets := s.card.packets + 1 } }

/-- A machine check is an event of the driver (R438): of the partition's function, or of the physical function. -/
def State.machineEvent (s : State) (colour : Option Nat) (strand : Word) (x : Exc) : State :=
  match colour with
  | some c => s.pushEvent (c + 1) 2 c (strandLaunch strand).toNat x
  | none => s.pushEvent 0 2 0 0 x

end Sys2Proof.Machine
end

