-- ==== Sys2Proof/Machine/Caches.lean ====
section
/-! DEFINITION. The stash, the cluster cache and the sheaf aperture as a strand's accesses meet them (R281, R289-R293, R304-R306,
R368-R377): the value of a byte, fills, stores, write-backs, acquires and releases. The acting strand is that of the core in focus. -/

namespace Sys2Proof.Machine

/-- A core of the focus card by its logical number. -/
def State.coreAt (s : State) (n : Nat) : Option Core :=
  if s.core.num = n then some s.core else s.card.cores.find? fun c => c.num == n

/-- Writes a core of the focus card back. -/
def State.setCore (s : State) (c : Core) : State :=
  if s.core.num = c.num then { s with core := c }
  else { s with card := { s.card with cores := s.card.cores.map fun d => if d.num = c.num then c else d } }

def State.clusterAt (s : State) (k : Nat) : Cluster := s.card.clusters.toList.getD k ⟨[], 0, 0, [], []⟩

def State.setCluster (s : State) (k : Nat) (c : Cluster) : State :=
  if h : k < 32 then { s with card := { s.card with clusters := s.card.clusters.set k c h } } else s

def State.mapCombining (s : State) (f : List CombineEntry → List CombineEntry) : State :=
  { s with card := { s.card with combining := f s.card.combining } }

/-! ### Cluster cache -/

def Cluster.find (c : Cluster) (line : Nat) : Option CacheLine := c.lines.find? fun l => l.tag == line

/-- The line of a tag replaced where it stands. -/
def Cluster.put (c : Cluster) (l : CacheLine) : Cluster :=
  { c with lines := c.lines.map fun m => if m.tag = l.tag then l else m }

/-- A line becomes the most recently used one. -/
def Cluster.use (c : Cluster) (l : CacheLine) : Cluster := { c with lines := l :: c.lines.filter fun m => m.tag != l.tag }

/-- A line of the cache without any byte. -/
def CacheLine.empty (tag : Nat) : CacheLine := ⟨tag, false, .none, 0, 0, 0, List.replicate 128 0#8⟩

/-- The set of a line in its cluster-cache slice of 128 sets of 16 ways (R359; which one, DESIGN CHOICE, log entry 42). -/
def clusterSet (tag : Nat) : Nat := Config.clusterSet tag % 128

/-- The least recently used line of a full set of 16 ways, which a new line of the set replaces (R359, R375). -/
def Cluster.victim (c : Cluster) (line : Nat) : Option CacheLine :=
  if c.lines.length < 16 then none
  else
    let set := c.lines.filter fun l => sliceOf l.tag == sliceOf line && clusterSet l.tag == clusterSet line
    if set.length < 16 then none else set.getLast?

/-- A line leaves a cluster cache. -/
def Cluster.evict (c : Cluster) (line : Nat) : Cluster :=
  { c with lines := c.lines.filter fun l => l.tag != line, dirtyList := c.dirtyList.filter fun p => p.2 != line }

/-- The bytes that are not dirty hold current data (R371). -/
def Cluster.fresh (c : Cluster) (l : CacheLine) : Bool :=
  l.fill && match l.ss with
    | .none => true
    | .package => l.ver == c.pkgVer
    | .system => l.ver == c.sysVer

/-- A clean copy that the core in focus may use: it is fresh, and no LDA of its strand has read its home past it (R117), behind which R287
lets the strand return no older value (log entry 44). -/
def State.usable (s : State) (k : Nat) (l : CacheLine) : Bool := (s.clusterAt k).fresh l && !s.core.passed.contains l.tag

/-- A byte that is present in a cluster cache for the core in focus (R371). -/
def State.clusterByte? (s : State) (k tag : Nat) : Option Byte :=
  match (s.clusterAt k).find (lineTag tag) with
  | none => none
  | some l => if l.dmask.getLsbD (tag % 128) || s.usable k l then some (l.data.getD (tag % 128) 0#8) else none

/-- Whether the home of a byte is peer or host memory. -/
def State.isRemote (s : State) (asid colour va : Nat) : Bool :=
  match s.homeOf asid colour va with
  | some (.peer _) => true
  | some (.host _) => true
  | _ => false

/-- The value of a byte at the cluster cache: present there, or fetched from its home. -/
def State.clusterByte (s : State) (k asid colour va : Nat) : Byte :=
  (s.clusterByte? k (tagOf asid va)).getD (s.homeValue asid colour va)

/-- The home of the i-th byte after one with a home, within its page. -/
def Home.at_ (h : Home) (i : Nat) : Home :=
  match h with
  | .local pa => .local (pa + i)
  | .peer pa => .peer (pa + i)
  | .host a => .host (a + i)

def Home.back (h : Home) (i : Nat) : Home :=
  match h with
  | .local pa => .local (pa - i)
  | .peer pa => .peer (pa - i)
  | .host a => .host (a - i)

/-- The stale scope of a fill (R369). -/
def staleOf : ObjClass → Stale
  | .package => .package
  | .system => .system
  | _ => .none

/-- The hotness octant of a core (R390). -/
def octantOf (core : Nat) : Nat :=
  if core < 256 then 4 * (core / 128) + 2 * (core / 16 % 8 / 4) + core % 16 / 8
  else let m := (core - 256) / 2; 4 * (m / 8) + 2 * (m % 8 / 4) + m % 4 / 2

/-- A dirty byte of a tag merges into its home; L2 takes one whose page is mapped no longer. -/
def State.mergeHome (s : State) (colour tag : Nat) (b : Byte) : State :=
  s.writeHome tag b ((s.homeOf (tagAsid tag) colour (tagVa tag)).getD (.local 0))

/-- A line's dirty bytes merge into its home, and its dirty state is cleared (R374). -/
def State.writeBackLine (s : State) (k colour tag : Nat) : State :=
  let c := s.clusterAt k
  match c.find tag with
  | none => s
  | some l =>
    let s := (List.range 128).foldl (fun s i =>
      if l.dmask.getLsbD i then s.mergeHome colour (tag + i) (l.data.getD i 0#8) else s) s
    s.setCluster k { (c.put { l with dmask := 0, wmask := 0 }) with dirtyList := c.dirtyList.filter fun p => p.2 != tag }

/-- A line becomes the most recently used one of a cluster cache, in its own way or in a new one; the line that leaves for it is first
written back to L2 (R375). -/
def State.useLine (s : State) (k colour : Nat) (l : CacheLine) : State :=
  let s := if ((s.clusterAt k).find l.tag).isSome then s else match (s.clusterAt k).victim l.tag with
    | none => s
    | some v =>
      let t := if v.dmask = 0 then s else s.writeBackLine k colour v.tag
      t.setCluster k ((t.clusterAt k).evict v.tag)
  s.setCluster k ((s.clusterAt k).use l)

/-- A line of a cluster cache takes the bytes of its home under its dirty bytes, with the scope and version of the fill (R369, R371). -/
def State.placeFill (s : State) (k asid colour base : Nat) (h : Home) : State :=
  let tag := tagOf asid base
  let c := s.clusterAt k
  let old := (c.find tag).getD (CacheLine.empty tag)
  let ss := staleOf (s.classOf (some k) (s.isRemote asid colour base) base)
  let ver := match ss with | .system => c.sysVer | _ => c.pkgVer
  let data := (List.range 128).map fun i =>
    if old.dmask.getLsbD i then old.data.getD i 0#8 else s.readHome (tag + i) (h.at_ i)
  s.useLine k colour { old with fill := true, ss := ss, ver := ver, data := data }

/-- What a read of n bytes leaves at their home: the L2 of the home card holds their line, and a read of HBM is counted in the octant of the
requester, a peer's in none (R375, R390, R391). -/
def State.sliceRead (s : State) (tag n reader : Nat) (h : Home) : State :=
  match h with
  | .local pa => { s with card := s.card.fetchL2 tag pa n (some (octantOf reader)) }
  | .peer pa => { s with peer := s.peer.fetchL2 tag pa n none }
  | .host _ => s

/-- The cores whose reads of a line a read shares its reply with: those that routers have absorbed behind it, behind those, and so on
(R429). -/
def Card.sharers (k : Card) (line : Nat) : Nat → List Nat → List Nat
  | 0, g => g
  | n + 1, g => k.sharers line n (g ++ ((k.combining.filter fun e => e.tag == line && g.contains e.first).flatMap CombineEntry.absorbed).filter
      fun c => !g.contains c)

/-- The core whose read of a line reaches the slice for a core: itself, unless a router has absorbed its read (R429). -/
def Card.readerOf (k : Card) (line : Nat) : Nat → Nat → Nat
  | 0, c => c
  | n + 1, c => match k.combining.find? fun e => e.tag == line && e.absorbed.contains c with
    | some e => k.readerOf line n e.first
    | none => c

/-- The reply of a read of a line is forked to the other reads that routers have absorbed behind it, and their entries are freed (R429): a
compute core's cluster cache takes the line, a badger core's read has its reply to come. -/
def State.forkReply (s : State) (line : Nat) (group : List Nat) (h : Home) : State :=
  ((group.filter fun n => n != s.core.num).foldl (fun s n => match clusterOf n with
    | some k => s.placeFill k (tagAsid line) s.core.colour.toNat (tagVa line) h
    | none => { s with card := { s.card with forked := (n, line) :: s.card.forked } }) s).mapCombining fun es =>
      es.filter fun e => !(e.tag == line && group.contains e.first)

/-- A read of n bytes of one line by the core in focus: by its own request, or as one of several reads that routers have combined, of which
one alone reaches the slice and whose reply they share (R429). -/
def State.touchL2 (s : State) (tag n : Nat) (h : Option Home) : State :=
  match h with
  | none => s
  | some h =>
    let line := lineTag tag
    if s.card.forked.contains (s.core.num, line) then { s with card := { s.card with forked := s.card.forked.erase (s.core.num, line) } }
    else if s.card.combining.isEmpty then s.sliceRead tag n s.core.num h
    else
      let depth := s.card.combining.length
      let reader := s.card.readerOf line depth s.core.num
      (s.sliceRead tag n reader h).forkReply line (s.card.sharers line depth [reader]) (h.back (tag % 128))

/-- The lines that an LDA of the strand has passed are these. -/
def State.setPassed (s : State) (lines : List Nat) : State := { s with core := { s.core with passed := lines } }

/-- A fill of a cluster-cache line from its home under the dirty bytes (R369, R371); a line that the core may use stays as it is. -/
def State.fillLine (s : State) (k asid colour va : Nat) : State :=
  let base := va - va % 128
  let tag := tagOf asid base
  let c := s.clusterAt k
  let old := (c.find tag).getD (CacheLine.empty tag)
  if s.usable k old then s.useLine k colour old
  else match s.homeOf asid colour base with
    | none => s
    | some h => ((s.touchL2 tag 128 (some h)).placeFill k asid colour base h).setPassed (s.core.passed.filter fun t => t != tag)

/-- Puts a line on a core's dirty list; a 65th line of a slice first writes back the oldest listed one (R373). -/
def State.listDirty (s : State) (k me colour tag : Nat) : State :=
  let c := s.clusterAt k
  if c.dirtyList.contains (me, tag) then s
  else
    let mine := c.dirtyList.filter fun p => p.1 == me && sliceOf p.2 == sliceOf tag
    let s := if 64 ≤ mine.length then (match mine.head? with | some p => s.writeBackLine k colour p.2 | none => s) else s
    let c := s.clusterAt k
    s.setCluster k { c with dirtyList := c.dirtyList ++ [(me, tag)] }

/-- A store of one byte into the cluster cache by a core of the cluster (R373). -/
def State.storeCluster (s : State) (k me colour tag : Nat) (b : Byte) : State :=
  let s := s.listDirty k me colour (lineTag tag)
  let old := ((s.clusterAt k).find (lineTag tag)).getD (CacheLine.empty (lineTag tag))
  s.useLine k colour { old with
    dmask := old.dmask ||| 1#128 <<< (tag % 128),
    wmask := old.wmask ||| 1#8 <<< me,
    data := old.data.set (tag % 128) b }

/-- A clean copy of a byte takes a new value, if the line is there (R292, R293). -/
def State.refreshCluster (s : State) (k tag : Nat) (b : Byte) : State :=
  let c := s.clusterAt k
  match c.find (lineTag tag) with
  | none => s
  | some l => s.setCluster k (c.put { l with data := l.data.set (tag % 128) b })

/-! ### Stash -/

/-- The state with a new stash of the core in focus. -/
def State.withStash (s : State) (t : Stash) : State := { s with core := { s.core with stash := t } }

/-- The stash offset of a byte that lies in a window of a core. -/
def Core.windowOff (c : Core) (asid va : Nat) : Option Nat :=
  let t := if shared va then 0 else asid
  (c.stash.windows.toList.findSome? fun w => match w with
    | some w => if w.asid = t ∧ w.va ≤ va ∧ va < w.va + 2 ^ w.lg then some (w.off + (va - w.va)) else none
    | none => none)

/-- The owner's core and stash offset of a byte that lies in the sheaf aperture (R305). -/
def Core.apertureAt (c : Core) (va : Nat) : Option (Nat × Nat) :=
  match c.stash.aperture with
  | none => none
  | some a => if a.base ≤ va ∧ va < a.base + a.members.length * 2 ^ 18
      then some (a.members.getD ((va - a.base) / 2 ^ 18) 0, (va - a.base) % 2 ^ 18) else none

def Granule.none : Granule := ⟨false, false, 0, 0⟩

def Stash.granule (t : Stash) (i : Nat) : Granule :=
  ((t.granules.find? fun p => p.1 == i).map Prod.snd).getD Granule.none

def Stash.setGranule (t : Stash) (i : Nat) (g : Granule) : Stash :=
  { t with granules := (t.granules.filter fun p => p.1 != i) ++ [(i, g)] }

/-- A granule's bytes that are not dirty are current (R371). -/
def Stash.fresh (t : Stash) (g : Granule) : Bool := g.fill && (!g.cluster || g.ver == t.ver)

/-- A write of a stash byte sets its granule's bit of the changed-granule map (R324). -/
def Stash.write (t : Stash) (off : Nat) (b : Byte) : Stash :=
  { t with bytes := writeByte t.bytes off b, changed := t.changed ||| 1#2048 <<< (off / 128) }

/-- A store into a window's byte marks it dirty (R373). -/
def Stash.store (t : Stash) (off : Nat) (b : Byte) : Stash :=
  let g := t.granule (off / 128)
  (t.write off b).setGranule (off / 128) { g with dmask := g.dmask ||| 1#128 <<< (off % 128) }

/-- A stash byte that is present in a window (R371). -/
def Stash.byte? (t : Stash) (off : Nat) : Option Byte :=
  let g := t.granule (off / 128)
  if g.dmask.getLsbD (off % 128) || t.fresh g then some (readByte t.bytes off) else none

/-- Whether a stash offset lies in a window (R305, R377). -/
def Stash.inWindow (t : Stash) (off : Nat) : Bool :=
  t.windows.toList.any fun w => match w with
    | some w => decide (w.off ≤ off) && decide (off < w.off + 2 ^ w.lg)
    | none => false

/-- The value of a byte below the stash: the cluster cache's, or for a badger core the home's (R465). -/
def State.belowStash (s : State) (asid colour va : Nat) : Byte :=
  match clusterOf s.core.num with
  | some k => s.clusterByte k asid colour va
  | none => s.homeValue asid colour va

/-- The value of a byte in the strand's stash windows or below the stash. -/
def State.peekOutside (s : State) (asid va : Nat) : Byte :=
  match s.core.windowOff asid va with
  | some off => (s.core.stash.byte? off).getD (s.belowStash asid s.core.colour.toNat va)
  | none => s.belowStash asid s.core.colour.toNat va

/-- The value that a load of the strand in focus returns for one byte, under an ASID. -/
def State.peekIn (s : State) (asid va : Nat) : Byte :=
  match s.core.apertureAt va with
  | some (owner, off) => match s.coreAt owner with
    | some c => readByte c.stash.bytes off
    | none => 0#8
  | none => s.peekOutside asid va

/-- The value that a load of the strand in focus returns for one byte. -/
def State.peek (s : State) (va : Nat) : Byte := s.peekIn s.core.asid.toNat va

def State.peekBytes (s : State) (va n : Nat) : List Byte := (List.range n).map fun i => s.peek (va + i)

/-- A fill of a window granule from the level above under its dirty bytes (R304, R369, R377). -/
def State.fillGranule (s : State) (asid colour va off : Nat) : State :=
  let t := s.core.stash
  let i := off / 128
  let g := t.granule i
  if t.fresh g then s
  else
    let base := va - va % 128
    let s := match clusterOf s.core.num with
      | some k => s.fillLine k asid colour base
      | none => s.touchL2 (tagOf asid base) 128 (s.homeOf asid colour base)
    let cls := s.classOf (clusterOf s.core.num) (s.isRemote asid colour base) base
    let ss := match cls with | .priv => false | .readonly => false | _ => true
    let t := (List.range 128).foldl (fun t j =>
      if g.dmask.getLsbD j then t else t.write (i * 128 + j) (s.belowStash asid colour (base + j))) s.core.stash
    s.withStash (t.setGranule i { g with fill := true, cluster := ss, ver := t.ver })

/-- A read of n bytes of one line at a cluster cache: their line becomes the most recently used one, filled when one of them is not present
(R371). -/
def State.readLine (s : State) (k asid colour va n : Nat) : State :=
  match (s.clusterAt k).find (lineTag (tagOf asid va)) with
  | some l =>
    if ((List.range n).all fun i => (s.clusterByte? k (tagOf asid va + i)).isSome) = true then s.useLine k colour l else s.fillLine k asid colour va
  | none => s.fillLine k asid colour va

/-- A read of n bytes of one granule of a window of the core in focus: the granule is filled when one of them is not present. -/
def State.readGranule (s : State) (asid colour va off n : Nat) : State :=
  if ((List.range n).all fun i => (s.core.stash.byte? (off + i)).isSome) = true then s else s.fillGranule asid colour va off

/-- What a read of n bytes of one line, in a stash window or below the stash, leaves in the caches: their granule or line filled. -/
def State.touchOutside (s : State) (va n : Nat) : State :=
  let asid := s.core.asid.toNat
  let colour := s.core.colour.toNat
  match s.core.windowOff asid va with
  | some off => s.readGranule asid colour va off n
  | none => match clusterOf s.core.num with
    | some k => s.readLine k asid colour va n
    | none => s.touchL2 (tagOf asid va) n (s.homeOf asid colour va)

/-- What a load of n bytes of one line leaves in the caches; the aperture is not cached (R305). -/
def State.touch (s : State) (va n : Nat) : State := if (s.core.apertureAt va).isSome then s else s.touchOutside va n

/-- What a load of n bytes leaves in the caches: every line that it meets. -/
def State.touchRange (s : State) (va n : Nat) : State :=
  (linePieces va n).foldl (fun s p => s.touch p.1 p.2) s

/-! ### Stores -/

/-- What the front end goes on to read for a byte that a store writes, until the next IFENCE: the byte from before the first such store
(R298). -/
def Core.keepCode (c : Core) (tag : Nat) (old : Byte) : Core :=
  if (lookup c.codeView tag).isSome then c else { c with codeView := insertByte c.codeView tag old }

/-- The tagged address of a stash offset that a window maps. -/
def Stash.windowTag (t : Stash) (off : Nat) : Option Nat :=
  t.windows.toList.findSome? fun w => match w with
    | some w => if w.off ≤ off ∧ off < w.off + 2 ^ w.lg then some (w.asid * 2 ^ 52 + w.va + (off - w.off)) else none
    | none => none

/-- A write of stash bytes of any core of the card, from outside it: an aperture store, a rendezvous update (R305, R377). The owner's
front end does not use it before an IFENCE (R298). -/
def State.writeStashOf (s : State) (owner off : Nat) (b : Byte) : State :=
  match s.coreAt owner with
  | none => s
  | some c => match c.stash.windowTag off with
    | some tag => s.setCore { c.keepCode tag (readByte c.stash.bytes off) with stash := c.stash.store off b }
    | none => s.setCore { c with stash := c.stash.write off b }

/-- The strand's first access to a granule of a window fills it, stores too (R304). -/
def State.fillFirst (s : State) (tag off : Nat) : State :=
  if (s.core.stash.granule (off / 128)).fill then s else s.fillGranule (tagAsid tag) s.core.colour.toNat (tagVa tag) off

/-- A store to peer or host memory: it performs at its home and updates the writer's own copies (R293). -/
def State.storeRemote (s : State) (tag : Nat) (h : Home) (b : Byte) : State :=
  let s := match s.core.windowOff (tagAsid tag) (tagVa tag) with
    | some off => let s := s.fillFirst tag off; s.withStash (s.core.stash.write off b)
    | none => s
  let s := match clusterOf s.core.num with
    | some k => s.refreshCluster k tag b
    | none => s
  s.writeHome tag b h

/-- A store to peer memory is dropped and counted; the strand is to receive class 15 detail 0x01, and the driver has the event (R438,
R443). -/
def State.dropPeerStore (s : State) (line : Nat) : State :=
  let x : Exc := ⟨15, 1, BitVec.ofNat 64 (tagVa line), BitVec.ofNat 64 ((clusterOf s.core.num).getD 0)⟩
  let t := (s.mapService fun v => { v with storesDropped := v.storesDropped + 1 }).machineEvent (some s.core.colour.toNat) s.core.strand x
  { t with core := { t.core with machineChecks := t.core.machineChecks ++ [x] } }

/-- A store of one byte by the strand in focus performs (R147, R293, R373, R465); the front end does not use it before an IFENCE. -/
def State.storeByte (s : State) (tag : Nat) (tgt : Target) (b : Byte) : State :=
  let s := { s with core := s.core.keepCode tag (s.peekIn (tagAsid tag) (tagVa tag)) }
  match tgt with
  | .host h => s.storeRemote tag (.host h) b
  | .peer => s.storeRemote tag (.peer 0) b
  | .local _ =>
    match s.core.windowOff (tagAsid tag) (tagVa tag) with
    | some off => let s := s.fillFirst tag off; s.withStash (s.core.stash.store off b)
    | none => match clusterOf s.core.num with
      | some k => s.storeCluster k (coreInCluster s.core.num) s.core.colour.toNat tag b
      | none => { s with card := s.card.mergeL2 tag b }

def targetAt (t : Target) (i : Nat) : Target :=
  match t with
  | .local pa => .local (pa + i)
  | .peer => .peer
  | .host h => .host (h + i)

def State.storeBytes (s : State) (tag : Nat) (tgt : Target) (bs : List Byte) : State :=
  (bs.zipIdx).foldl (fun s p => s.storeByte (tag + p.2) (targetAt tgt p.2) p.1) s

/-! ### Write-back, release, acquire -/

/-- A granule's dirty bytes go to the cluster cache (to L2 for a badger core), and its dirty state is cleared (R306, R374, R465). -/
def State.writeBackGranule (s : State) (w : Window) (i : Nat) : State :=
  let t := s.core.stash
  let g := t.granule i
  let va := w.va + (i * 128 - w.off)
  let s := (List.range 128).foldl (fun s j =>
    if g.dmask.getLsbD j then
      let b := readByte t.bytes (i * 128 + j)
      match clusterOf s.core.num with
      | some k => s.storeCluster k (coreInCluster s.core.num) s.core.colour.toNat (tagOf w.asid (va + j)) b
      | none => s.mergeHome s.core.colour.toNat (tagOf w.asid (va + j)) b
    else s) s
  if g.dmask = 0 then s
  else s.withStash (s.core.stash.setGranule i { s.core.stash.granule i with dmask := 0 })

/-- Every dirty granule of a window is written back. -/
def State.writeBackWindow (s : State) (w : Window) : State :=
  (s.core.stash.granules.map Prod.fst).foldl (fun s i =>
    if w.off ≤ i * 128 ∧ i * 128 < w.off + 2 ^ w.lg then s.writeBackGranule w i else s) s

def State.writeBackWindows (s : State) : State :=
  s.core.stash.windows.toList.foldl (fun s w => match w with | some w => s.writeBackWindow w | none => s) s

/-- Every line on the core's dirty lists is written back to L2 (R374). -/
def State.writeBackCluster (s : State) : State :=
  match clusterOf s.core.num with
  | none => s
  | some k => ((s.clusterAt k).dirtyList.filter fun p => p.1 == coreInCluster s.core.num).foldl
      (fun s p => s.writeBackLine k s.core.colour.toNat p.2) s

/-- The write-backs of a release by scope code: CORE 0, CLUSTER 1, PACKAGE 2, SYSTEM 3 (R281, R374). -/
def State.releaseAt (s : State) (scope : Nat) : State :=
  if scope = 0 then s
  else if scope = 1 then s.writeBackWindows
  else s.writeBackWindows.writeBackCluster

/-- A version wrap sweeps its scope: fill is cleared, dmask stays (R372). -/
def Cluster.sweep (c : Cluster) (ss : Stale) : Cluster :=
  { c with lines := c.lines.map fun l => if l.ss = ss then { l with fill := false } else l }

def Cluster.bumpPackage (c : Cluster) : Cluster :=
  let c := if c.pkgVer = 255#8 then c.sweep .package else c
  { c with pkgVer := c.pkgVer + 1#8 }

def Cluster.bumpSystem (c : Cluster) : Cluster :=
  let c := if c.sysVer = 255#8 then c.sweep .system else c
  { c with sysVer := c.sysVer + 1#8 }

def Stash.sweep (t : Stash) : Stash :=
  { t with granules := t.granules.map fun p => (p.1, if p.2.cluster then { p.2 with fill := false } else p.2) }

def Stash.bump (t : Stash) : Stash :=
  let t := if t.ver = 255#8 then t.sweep else t
  { t with ver := t.ver + 1#8 }

/-- An acquire at a scope: the versions of R370 go up. -/
def State.acquireAt (s : State) (scope : Nat) : State :=
  let s := if 1 ≤ scope then s.withStash (s.core.stash.bump) else s
  match clusterOf s.core.num with
  | none => s
  | some k =>
    let s := if 2 ≤ scope then s.setCluster k (s.clusterAt k).bumpPackage else s
    if 3 ≤ scope then s.setCluster k (s.clusterAt k).bumpSystem else s

/-! ### Accesses at a coherence point -/

/-- Where an access at a scope acts (R280, R292, R465). -/
inductive Point where
  | aperture (owner off : Nat)
  | stash (off : Nat)
  | cluster (k : Nat)
  | home
deriving DecidableEq, Repr

/-- The coherence point of a scope for a byte (R280, R465). -/
def State.scopePoint (s : State) (scope va : Nat) : Point :=
  match s.core.apertureAt va with
  | some (o, f) => .aperture o f
  | none => match s.core.windowOff s.core.asid.toNat va, clusterOf s.core.num with
    | some off, none => if scope = 0 then .stash off else .home
    | some off, some k => if scope = 0 then .stash off else if scope = 1 then .cluster k else .home
    | none, some k => if scope ≤ 1 then .cluster k else .home
    | none, none => .home

/-- The point of an atomic or a RED: limited to the cluster cache for class cluster, moved to the home for peer and host memory (R292). -/
def State.pointOf (s : State) (scope va : Nat) : Point :=
  let cl := clusterOf s.core.num
  match s.core.apertureAt va with
  | some (o, f) => .aperture o f
  | none =>
    if s.isRemote s.core.asid.toNat s.core.colour.toNat va then .home
    else s.scopePoint (if s.classOf cl false va = .cluster then min scope 1 else scope) va

/-- The value at a point. -/
def State.valueAt (s : State) (p : Point) (va : Nat) : Byte :=
  let asid := s.core.asid.toNat
  let colour := s.core.colour.toNat
  match p with
  | .aperture .. => s.peek va
  | .stash _ => s.peek va
  | .cluster k => s.clusterByte k asid colour va
  | .home => s.homeValue asid colour va

/-- The strand's own dirty copy of a byte above a point (R117): the stash's, or the cluster cache's in a line that the core has written,
since a line keeps its writers and not those of each byte (R368; DEDUCED, log entry 44). -/
def State.ownDirty (s : State) (p : Point) (va : Nat) : Option Byte :=
  let asid := s.core.asid.toNat
  let tag := tagOf asid va
  let inStash : Option Byte := match s.core.windowOff asid va with
    | some off => if (s.core.stash.granule (off / 128)).dmask.getLsbD (off % 128) then some (readByte s.core.stash.bytes off) else none
    | none => none
  match p with
  | .aperture .. => none
  | .stash _ => none
  | .cluster _ => inStash
  | .home =>
    match inStash with
    | some b => some b
    | none => match clusterOf s.core.num with
      | none => none
      | some k => match (s.clusterAt k).find (lineTag tag) with
        | some l => if l.dmask.getLsbD (tag % 128) && l.wmask.getLsbD (coreInCluster s.core.num) then some (l.data.getD (tag % 128) 0#8) else none
        | none => none

/-- The value that LDA returns for one byte (R117): its own dirty copy, else the value at the coherence point of its scope. -/
def State.acquireByte (s : State) (scope va : Nat) : Byte :=
  let p := s.scopePoint scope va
  (s.ownDirty p va).getD (s.valueAt p va)

/-- What a read of n bytes at a point leaves there: their granule or line filled, or their line in L2. -/
def State.readAt (s : State) (p : Point) (va n : Nat) : State :=
  let asid := s.core.asid.toNat
  let colour := s.core.colour.toNat
  match p with
  | .aperture .. => s
  | .stash off => s.readGranule asid colour va off n
  | .cluster k => s.readLine k asid colour va n
  | .home => s.touchL2 (tagOf asid va) n (s.homeOf asid colour va)

/-- An LDA at the home finds a line there that only other cores of the cluster have written: they may have made its bytes visible to the
strand at CLUSTER scope (R286), and the line is written back before the home is read, which R287 allows (R374; DEDUCED, log entry 44). -/
def State.yieldLine (s : State) (p : Point) (va : Nat) : State :=
  match p, clusterOf s.core.num with
  | .home, some k =>
    match (s.clusterAt k).find (lineTag (tagOf s.core.asid.toNat va)) with
    | some l => if l.dmask ≠ 0 ∧ l.wmask.getLsbD (coreInCluster s.core.num) = false then s.writeBackLine k s.core.colour.toNat l.tag else s
    | none => s
  | _, _ => s

/-- The strand notes a clean copy in its cluster cache that an LDA at the home passes (R117): the copy stays as it is, and the strand's own
later loads refill it, so that none goes back behind the LDA (R287; DEDUCED, log entry 44). -/
def State.passCopies (s : State) (p : Point) (va : Nat) : State :=
  match p, clusterOf s.core.num with
  | .home, some k =>
    let line := lineTag (tagOf s.core.asid.toNat va)
    if ((s.clusterAt k).find line).isSome && !s.core.passed.contains line then s.setPassed (line :: s.core.passed) else s
  | _, _ => s

/-- The dirty bytes of a byte's range reach the point, and are dirty no longer above it (R292): the strand's own, and at the home those that
another core of its cluster has written too, since a line does not keep the writer of each byte (DESIGN CHOICE, log entry 69). -/
def State.pushDown (s : State) (p : Point) (va : Nat) : State :=
  let asid := s.core.asid.toNat
  let colour := s.core.colour.toNat
  let tag := tagOf asid va
  let me := coreInCluster s.core.num
  match p with
  | .aperture .. => s
  | .stash _ => s
  | _ =>
    let s := match s.core.windowOff asid va with
      | some off =>
        let g := s.core.stash.granule (off / 128)
        if g.dmask.getLsbD (off % 128) then
          let b := readByte s.core.stash.bytes off
          let s := s.withStash (s.core.stash.setGranule (off / 128) { g with dmask := g.dmask &&& ~~~(1#128 <<< (off % 128)) })
          match clusterOf s.core.num with
          | some k => s.storeCluster k me colour tag b
          | none => s.mergeHome colour tag b
        else s
      | none => s
    match p, clusterOf s.core.num with
    | .home, some k =>
      match (s.clusterAt k).find (lineTag tag) with
      | some l =>
        if l.dmask.getLsbD (tag % 128) then
          let s := s.setCluster k ((s.clusterAt k).put { l with dmask := l.dmask &&& ~~~(1#128 <<< (tag % 128)) })
          s.mergeHome colour tag (l.data.getD (tag % 128) 0#8)
        else s
      | none => s
    | _, _ => s

/-- A byte takes its value at the point, and the strand's own copies above it are refreshed (R292). -/
def State.putAt (s : State) (p : Point) (va : Nat) (written : Bool) (b : Byte) : State :=
  let asid := s.core.asid.toNat
  let colour := s.core.colour.toNat
  let tag := tagOf asid va
  let me := coreInCluster s.core.num
  let refreshStash (s : State) : State := match s.core.windowOff asid va with
    | some off => if (s.core.stash.granule (off / 128)).fill then s.withStash (s.core.stash.write off b) else s
    | none => s
  let s := if written then { s with core := s.core.keepCode tag (s.peek va) } else s
  match p with
  | .aperture o f => if written then s.writeStashOf o f b else s
  | .stash off => if written then let s := s.fillFirst tag off; s.withStash (s.core.stash.store off b) else s
  | .cluster k => refreshStash (if written then s.storeCluster k me colour tag b else s)
  | .home =>
    let s := if written then (match s.homeOf asid colour va with | some h => s.writeHome tag b h | none => s) else s
    refreshStash (match clusterOf s.core.num with | some k => s.refreshCluster k tag b | none => s)

/-- The point of the i-th byte after one with a point. -/
def Point.at_ (p : Point) (i : Nat) : Point :=
  match p with
  | .aperture o g => .aperture o (g + i)
  | .stash off => .stash (off + i)
  | q => q

/-- The strand's own dirty bytes of a range reach its point (R292). -/
def State.pushRange (s : State) (p : Point) (va n : Nat) : State := (List.range n).foldl (fun s i => s.pushDown (p.at_ i) (va + i)) s

/-- Bytes take their values at a point. -/
def State.putRange (s : State) (p : Point) (va : Nat) (written : Bool) (bs : List Byte) : State :=
  (bs.zipIdx).foldl (fun s q => s.putAt (p.at_ q.2) (va + q.2) written q.1) s

/-- An indivisible read-modify-write of n bytes at a point: the old value, and the state after (R119, R292). `f` gives the new value, or
none when nothing is written. -/
def State.modifyWith (s : State) (p : Point) (va n : Nat) (f : Nat → Option Nat) : Nat × State :=
  let s := (s.pushRange p va n).readAt p va n
  let old := ofBytes ((List.range n).map fun i => s.valueAt (p.at_ i) (va + i))
  match f old with
  | some v => (old, s.putRange p va true (toBytes n v))
  | none => (old, s.putRange p va false (toBytes n old))

/-- The same at the coherence point of an atomic's scope. -/
def State.modifyAt (s : State) (scope va n : Nat) (f : Nat → Option Nat) : Nat × State := s.modifyWith (s.pointOf scope va) va n f

end Sys2Proof.Machine
end

