-- ==== Sys2Proof/Machine/Drain.lean ====
section
/-! DEFINITION. The store drain (R116, R118, R146-R149, R293, R305) and the updates of rendezvous objects on their way to their stashes
(R276, R277): what retired stores do when they perform, in program order. -/

namespace Sys2Proof.Machine

/-! ### Rendezvous objects -/

/-- The fields of an object (R276). -/
structure Rendezvous where
  expected : Nat
  pending : Nat
  bytes : Nat
  phase : Nat
  ovf : Bool
  rest : Nat
deriving DecidableEq, Repr

def Rendezvous.ofNat (v : Nat) : Rendezvous :=
  ⟨v % 2 ^ 16, v / 2 ^ 16 % 2 ^ 16, v / 2 ^ 32 % 2 ^ 28, v / 2 ^ 60 % 16, v.testBit 64, v / 2 ^ 65⟩

def Rendezvous.toNat (r : Rendezvous) : Nat :=
  r.expected + r.pending * 2 ^ 16 + r.bytes * 2 ^ 32 + r.phase * 2 ^ 60 + (if r.ovf then 2 ^ 64 else 0) + r.rest * 2 ^ 65

/-- Phase completion (R277, PHASE_COMPLETION). -/
def Rendezvous.settle (r : Rendezvous) : Rendezvous :=
  if r.pending = 0 ∧ r.bytes = 0 then { r with phase := (r.phase + 1) % 16, pending := r.expected } else r

/-- An arrival (R277). -/
def Rendezvous.arrive (r : Rendezvous) : Rendezvous :=
  if r.pending = 0 then { r with ovf := true } else ({ r with pending := r.pending - 1 } : Rendezvous).settle

/-- An update as its object's stash performs it: RZINIT sets the counts and leaves bytes, RZARR arrives (R277). -/
def RzUpdate.apply (u : RzUpdate) (r : Rendezvous) : Rendezvous :=
  match u.init with
  | some n => { r with expected := n, pending := n, phase := 0, ovf := false }
  | none => r.arrive

/-- An update performs at its object's stash, indivisibly. -/
def State.performUpdate (s : State) (u : RzUpdate) : State :=
  match s.coreAt u.owner with
  | none => s
  | some c =>
    ((toBytes 16 (u.apply (Rendezvous.ofNat (ofBytes (readBytes c.stash.bytes u.off 16)))).toNat).zipIdx).foldl
      (fun s p => s.writeStashOf u.owner (u.off + p.2) p.1) s

/-! ### Writes of the drain -/

/-- A check that finds a page absent counts the malformed entry that its walk stopped at (R384). -/
def State.countAbsent (s : State) (asid colour cls detail va : Nat) : State :=
  if cls = 3 ∧ detail < 6 ∧ detail % 2 = 0 then
    let t : State := { s with card := s.card.countMalformed asid colour va }
    if (s.card.translate asid colour va).map Leaf.target = some .peer then
      { t with peer := t.peer.countMalformed asid (s.card.boundColour colour) va }
    else t
  else s

/-- A store to peer or host memory performs at its home, which acknowledges it (R293, R308). The peer fails one whose page it does not map
writable, and none reaches it over a bridge that is down: such a store is dropped and counted (R366, R443). -/
def State.performRemote (s : State) (w : DrainWrite) : State :=
  match w.target with
  | .peer =>
    let asid := tagAsid w.tag
    let colour := s.core.colour.toNat
    if s.card.bridge.up then
      match s.peerAccess .store asid colour (tagVa w.tag) with
      | none => s.storeBytes w.tag w.target w.bytes
      | some d => (s.countAbsent asid colour 3 d (tagVa w.tag)).dropPeerStore (lineTag w.tag)
    else s.dropPeerStore (lineTag w.tag)
  | _ => s.storeBytes w.tag w.target w.bytes

/-- An aperture store performs at the owning stash (R305). -/
def State.performAperture (s : State) (w : DrainWrite) : State :=
  (w.bytes.zipIdx).foldl (fun s p => match s.core.apertureAt (tagVa w.tag + p.2) with
    | some (owner, off) => s.writeStashOf owner off p.1
    | none => s) s

/-- Whether a write of the drain goes out of the core's own memory path: through the aperture (R305), to peer or host memory (R293). -/
def State.goesOut (s : State) (w : DrainWrite) : Bool :=
  (s.core.apertureAt (tagVa w.tag)).isSome || match w.target with
    | .local _ => false
    | _ => true

/-- A write of the drain performs: a plain store where its bytes are kept, an STL's at the coherence point of its scope (R118). -/
def State.performWrite (s : State) (scope : Option Nat) (w : DrainWrite) : State :=
  if (s.core.apertureAt (tagVa w.tag)).isSome then s.performAperture w
  else match w.target, scope with
    | .local _, some sc =>
      let p := s.scopePoint sc (tagVa w.tag)
      (s.pushRange p (tagVa w.tag) w.bytes.length).putRange p (tagVa w.tag) true w.bytes
    | .local _, none => s.storeBytes w.tag w.target w.bytes
    | _, _ => s.performRemote w

/-- The port of an ordering domain (R442): the one that its outstanding transactions use, else source mod p among the working ports in
ascending order; a port that retrains has no domains but those. -/
def Bridge.portOf (b : Bridge) (source : Nat) : Option Nat :=
  match b.domains.find? fun d => d.1 == source with
  | some d => some d.2
  | none =>
    let ps := (List.range 4).filter fun i => let p := b.ports.toList.getD i Port.reset; p.working && !p.retraining
    ps[source % ps.length]?

/-- A transaction of the core in focus is outstanding: its domain keeps its port (R442). -/
def State.openDomain (s : State) : State :=
  match s.card.bridge.portOf s.core.num with
  | none => s
  | some p => { s with card := { s.card with bridge := { s.card.bridge with
      domains := (s.core.num, p) :: s.card.bridge.domains.filter fun d => d.1 != s.core.num } } }

/-- It has completed. -/
def State.closeDomain (s : State) : State :=
  if s.card.bridge.domains.isEmpty then s
  else { s with card := { s.card with bridge := { s.card.bridge with
    domains := s.card.bridge.domains.filter fun d => d.1 != s.core.num } } }

/-- The writes of the drain that have not performed, oldest first. -/
def Core.drainWrites (c : Core) : List (Option Nat × DrainWrite) := c.drain.flatMap fun e => e.writes.map fun w => (e.scope, w)

/-- The oldest write of the drain has performed; an entry without a further write is free (R147). -/
def Core.popDrain (c : Core) : Core :=
  match c.drain with
  | [] => c
  | e :: rest => { c with drain := if e.writes.length ≤ 1 then rest else { e with writes := e.writes.tail } :: rest, sent := false }

/-- The rendezvous updates of the core in focus have one older write fewer to wait for. -/
def State.passUpdates (s : State) : State :=
  if s.card.rendezvous.isEmpty then s
  else { s with card := { s.card with rendezvous := s.card.rendezvous.map fun u =>
    if u.core = s.core.num then { u with older := u.older - 1 } else u } }

/-- The oldest rendezvous update of the core in focus that no unperformed write of the drain is older than (R116). -/
def State.dueUpdate (s : State) : Option RzUpdate := s.card.rendezvous.find? fun u => u.core == s.core.num && u.older == 0

/-- It performs. -/
def State.updateOne (s : State) : State :=
  match s.dueUpdate with
  | none => s
  | some u => ({ s with card := { s.card with rendezvous := s.card.rendezvous.erase u } } : State).performUpdate u

/-- The oldest write of the drain performs. -/
def State.drainPerform (s : State) : State :=
  match s.core.drain with
  | [] => s
  | e :: _ =>
    let t := match e.writes with
      | [] => s
      | w :: _ => ((s.performWrite e.scope w).closeDomain).passUpdates
    { t with core := t.core.popDrain }

/-- Whether the oldest write of the drain is under way to another stash, to peer or to host memory. -/
def State.drainSent (s : State) : Option DrainWrite :=
  match s.core.drain with
  | e :: _ => if s.core.sent then e.writes.head? else none
  | [] => none

/-- One turn of the store drain: the oldest write of its oldest entry performs in the strand's own stash or cache, or goes out; each
performs before the next is sent (R146, R147, R293), and after every older rendezvous update (R116). A store to the peer waits for a port while
every working one retrains (R442). -/
def State.drainOne (s : State) : State :=
  match s.core.drain with
  | ⟨_, _, _, _, w :: _⟩ :: _ =>
    if s.core.sent || s.dueUpdate.isSome then s
    else if w.target = .peer ∧ s.card.bridge.up = true ∧ s.card.bridge.portOf s.core.num = none then s
    else if s.goesOut w && !(w.target == .peer && !s.card.bridge.up) then
      { (if w.target = .peer then s.openDomain else s) with core := { s.core with sent := true } }
    else s.drainPerform
  | _ => s.drainPerform

/-- Whether an STL's store has not performed: no younger store-type instruction of the strand performs before it (R118). -/
def Core.releaseStore (c : Core) : Bool := c.drain.any fun e => e.scope.isSome

/-- A write of the drain performs after the rendezvous updates that are due before it. -/
def State.drainNext (s : State) (p : Option Nat × DrainWrite) : State :=
  ((s.card.rendezvous.foldl (fun s _ => s.updateOne) s).performWrite p.1 p.2).passUpdates

/-- Every retired store of the strand performs, in program order (R149, R315). -/
def State.drainAll (s : State) : State :=
  s.core.drainWrites.foldl State.drainNext { s with core := { s.core with drain := [], sent := false } }

end Sys2Proof.Machine
end

