-- ==== Sys2Proof/Machine/SketchRecord.lean ====
section
/-! DEFINITION. The record of a count sketch and its place in memory (R202-R208, R226), and the checks of a memory-side unit (R228, R380). -/

namespace Sys2Proof.Machine

/-- Ranges overlap; ranges that meet at an endpoint, and empty ones, do not (R145). -/
def overlap (a b : Nat × Nat) : Bool := decide (a.1 < b.2) && decide (b.1 < a.2) && decide (a.1 < a.2) && decide (b.1 < b.2)

/-! ### Records -/

/-- The fields of a record (R202). -/
structure Record where
  base : Nat
  klimit : Nat
  depth : Nat
  cfmt : Nat
  lgw : Nat
  scale : Int
  seedset : Nat
  sat : Bool
  upd : Nat
  satcnt : Nat
  zeros : Bool
deriving DecidableEq, Repr

/-- A record from its 512 bits. -/
def Record.ofNat (v : Nat) : Record :=
  let f (lo n : Nat) : Nat := v / 2 ^ lo % 2 ^ n
  { base := f 0 52
    klimit := f 64 40
    depth := f 128 3
    cfmt := f 136 5
    lgw := f 144 5
    scale := (BitVec.ofNat 8 (f 160 8)).toInt
    seedset := f 168 2
    sat := v.testBit 176
    upd := f 192 64
    satcnt := f 256 32
    zeros := f 52 12 == 0 && f 104 24 == 0 && f 131 5 == 0 && f 141 3 == 0 && f 149 11 == 0 && f 170 6 == 0 && f 177 15 == 0 &&
      f 288 224 == 0 }

/-- The 24 bytes of words 2 to 4: geometry and sat, upd, satcnt. -/
def Record.words (r : Record) : Nat :=
  r.depth + r.cfmt * 2 ^ 8 + r.lgw * 2 ^ 16 + (BitVec.ofInt 8 r.scale).toNat * 2 ^ 32 + r.seedset * 2 ^ 40 +
    (if r.sat then 2 ^ 48 else 0) + r.upd * 2 ^ 64 + r.satcnt * 2 ^ 128

/-- The record's 512 bits with every zero field 0. -/
def Record.toNat (r : Record) : Nat := r.base + r.klimit * 2 ^ 64 + r.words * 2 ^ 128

/-- The counter array's bytes (R203). -/
def Record.arrayBytes (r : Record) : Nat := 4 * 2 ^ r.lgw * r.depth

/-- A geometry that R204 accepts. -/
def geometryOk (depth lgw : Nat) (scale : Int) (seedset : Nat) : Bool :=
  (depth == 3 || depth == 5 || depth == 7) && decide (3 ≤ lgw) && decide (lgw ≤ 26) && decide (-64 ≤ scale) && decide (scale ≤ 63) &&
    decide (seedset ≤ 3)

/-- A valid record at an address, except locality (R204). -/
def Record.valid (r : Record) (va : Nat) : Bool :=
  r.cfmt == 0x0C && geometryOk r.depth r.lgw r.scale r.seedset && r.klimit != 0 && r.base % 128 == 0 &&
    !overlap (r.base, r.base + r.arrayBytes) (va, va + 64) && r.zeros

/-! ### Hashing -/

/-- The first 56 primes, 14 for each seed set: seven for A, seven for C (R206-R208). -/
def sketchPrimes : List Nat :=
  [2, 3, 5, 7, 11, 13, 17, 19, 23, 29, 31, 37, 41, 43] ++
  [47, 53, 59, 61, 67, 71, 73, 79, 83, 89, 97, 101, 103, 107] ++
  [109, 113, 127, 131, 137, 139, 149, 151, 157, 163, 167, 173, 179, 181] ++
  [191, 193, 197, 199, 211, 223, 227, 229, 233, 239, 241, 251, 257, 263]

/-- The largest odd integer not above frac(√p)·2^64 (R206). -/
def hashConst (p : Nat) : Nat :=
  let k := isqrt (p * 2 ^ 128) % 2 ^ 64
  if k % 2 = 0 then k - 1 else k

/-- A_i and C_i of a seed set. -/
def hashA (seedset i : Nat) : Nat := hashConst (sketchPrimes.getD (14 * seedset + i) 2)
def hashC (seedset i : Nat) : Nat := hashConst (sketchPrimes.getD (14 * seedset + i + 7) 2)

/-- HASHB_i(k) (R205). -/
def hashBucket (lgw seedset i : Nat) (k : Nat) : Nat := (k + 1) * hashA seedset i % 2 ^ 64 / 2 ^ (64 - lgw)

/-- HASHS_i(k): whether the sign is −1 (R205). -/
def hashNeg (seedset i : Nat) (k : Nat) : Bool := ((k + 1) * hashC seedset i % 2 ^ 64).testBit 63

/-- The counter of a key in a row (R203). -/
def Record.counterOf (r : Record) (i k : Nat) : Nat := r.base + 4 * (2 ^ r.lgw * i + hashBucket r.lgw r.seedset i k)

/-! ### Memory at the PACKAGE coherence point (R226) -/

def State.homeBytes (s : State) (asid colour va n : Nat) : List Byte := (List.range n).map fun i => s.homeValue asid colour (va + i)

def State.writeHomeBytes (s : State) (asid colour va : Nat) (bs : List Byte) : State :=
  (bs.zipIdx).foldl (fun s p => match s.homeOf asid colour (va + p.2) with
    | some h => s.writeHome (tagOf asid (va + p.2)) p.1 h
    | none => s) s

def State.record (s : State) (asid colour va : Nat) : Record := Record.ofNat (ofBytes (s.homeBytes asid colour va 64))

/-- What reads by a unit of a range of local HBM leave in L2: its lines, and a count in an octant (R375, R391). -/
def State.unitRead (s : State) (octant : Option Nat) (asid colour va n : Nat) : State :=
  (linePieces va n).foldl (fun s p =>
    match s.homeOf asid colour p.1 with
    | some (.local pa) => { s with card := s.card.fetchL2 (tagOf asid p.1) pa p.2 octant }
    | _ => s) s

/-- sat, upd and satcnt of a record are written (words 2 to 4). -/
def State.putRecord (s : State) (asid colour va : Nat) (r : Record) : State := s.writeHomeBytes asid colour (va + 16) (toBytes 24 r.words)

/-- A counter, with 0x8000_0000 read as −(2^31 − 1) (R40, R203). -/
def State.counter (s : State) (asid colour va : Nat) : Int :=
  max ((BitVec.ofNat 32 (ofBytes (s.homeBytes asid colour va 4))).toInt) (-(2 ^ 31 - 1))

/-- CLAMPC: the value, and whether it was outside the range. -/
def clampCounter (t : Int) : Int × Bool := (sat t (-(2 ^ 31 - 1)) (2 ^ 31 - 1), decide (t < -(2 ^ 31 - 1)) || decide (2 ^ 31 - 1 < t))

/-- A clamp event in a record. -/
def Record.clamped (r : Record) : Record := { r with sat := true, satcnt := min (r.satcnt + 1) (2 ^ 32 - 1) }

/-- The machine as a memory-side unit sees it, without a permission TLB (R380). -/
def State.unitSide (s : State) : State := { s with core := { s.core with tlb := [] } }

/-- The first byte of a range whose page fails translation and permission for a memory-side operation at the card's own unit, with the
detail. -/
def State.memoryDenied (s : State) (a : Access) (asid colour : Nat) (sup : Bool) (lo n : Nat) : Option (Nat × Nat) :=
  if n = 0 then none
  else ((List.range ((lo + n - 1) / 65536 - lo / 65536 + 1)).map fun i => max lo ((lo / 65536 + i) * 65536)).findSome? fun b =>
    (s.unitSide.ownAccess a asid colour sup b).map fun d => (b, d)

/-- Whether a leaf's page lies elsewhere than in local HBM. -/
def Leaf.remote (l : Leaf) : Bool :=
  match l.target with
  | .local _ => false
  | _ => true

/-- The first page of a range that is not in local HBM (R204), whether its home maps it or not. -/
def State.notLocal (s : State) (asid colour lo n : Nat) : Option Nat :=
  if n = 0 then none
  else ((List.range ((lo + n - 1) / 65536 - lo / 65536 + 1)).map fun i => max lo ((lo / 65536 + i) * 65536)).find? fun b =>
    ((s.card.translate asid colour b).map Leaf.remote).getD false

/-- A memory-side fault of a sketch unit: class, detail, failing address (R228). -/
abbrev UnitFault := Nat × Nat × Nat

/-- Presence, permission, then locality of a range. -/
def State.areaCheck (s : State) (a : Access) (asid colour : Nat) (sup : Bool) (lo n : Nat) : Except UnitFault Unit :=
  match s.memoryDenied a asid colour sup lo n with
  | some (b, d) => .error (3, d, b)
  | none => match s.notLocal asid colour lo n with
    | some b => .error (7, 5, b)
    | none => .ok ()

/-- A read of a range that meets the line with an uncorrectable error, if there is one: class 11, reported at the read (R228, R329). -/
def readCheck (bad : Option Nat) (lo n : Nat) : Except UnitFault Unit :=
  match bad with
  | none => .ok ()
  | some b => if overlap (lo, lo + n) (b / 128 * 128, b / 128 * 128 + 128) then .error (11, 0, b / 128 * 128) else .ok ()

/-- The record at an address after its three checks (R228 order 1); `bad` is a line with an uncorrectable error. -/
def State.recordCheck (s : State) (a : Access) (asid colour : Nat) (sup : Bool) (bad : Option Nat) (va : Nat) : Except UnitFault Record := do
  s.areaCheck a asid colour sup va 64
  readCheck bad va 64
  let r := s.record asid colour va
  if r.valid va then .ok r else .error (7, 0, va)

end Sys2Proof.Machine
end

