-- ==== Sys2Proof/Machine/Ops.lean ====
section
/-! DEFINITION. What every instruction shares: how it ends (it retires, it takes a precise exception, it waits), taking an exception and
returning from one (R29, R310-R319), the causes that arrive from outside (R316), and the order of the strand's own accesses (R145). -/

namespace Sys2Proof.Machine

/-! ### Exceptions -/

/-- s.ps at supervisor entry: pmode takes the mode, mode becomes 1 (R29). -/
def enterPs (ps : Word) : Word := ((ps &&& ~~~(0x18000#64)) ||| 0x8000#64) ||| (if ps.getLsbD 15 then 0x10000#64 else 0#64)

/-- s.ps at ERET: mode takes pmode, pmode becomes 0 (R319). -/
def returnPs (ps : Word) : Word := (ps &&& ~~~(0x18000#64)) ||| (if ps.getLsbD 16 then 0x8000#64 else 0#64)

/-- The vector of a class (R314). -/
def vectorOf (tvec : Word) (cls : Nat) : Word := tvec + BitVec.ofNat 64 (64 * cls)

/-- The record and the mode bits of an entry with a given s.epc (R29, R313, R314). A pre-emption entry leaves its image address for PREACK
(R325); with the default handler table in force its vector is noted (R471). The younger instructions that have issued
are discarded (R150, R356). -/
def Core.enter (c : Core) (epc : Word) (x : Exc) : Core :=
  { c with
    epc := epc
    cause := causeWord x
    faddr := x.faddr
    finfo := x.finfo
    ps := enterPs c.ps
    pc := vectorOf c.tvec x.cls
    imageAddr := if x.cls = 13 ∧ x.detail = 0 then some x.faddr else none
    waitFrom := none
    waiting := none
    early := []
    fw := if c.dfltTable then x :: c.fw else [] }

/-- A class-3 fault for want of a page comes from a walk (R384, R385). -/
def State.countWalk (s : State) (x : Exc) : State :=
  if x.faddr.toNat < 2 ^ 52 then s.countAbsent s.core.asid.toNat s.core.colour.toNat x.cls x.detail x.faddr.toNat else s

/-- Entry at the instruction in focus, once every older store has performed (R149, R315). -/
def State.enter (s : State) (x : Exc) : State :=
  let t := (s.countWalk x).drainAll
  { t with core := t.core.enter t.core.pc x }

/-! ### How an instruction ends -/

/-- A wait for nothing that a class-12 report names. -/
def Wait.plain : Wait := ⟨false, false, none, false, false, []⟩

/-- A wait for every older post (FENCE, QFENCE on the post queue). -/
def Wait.posts : Wait := { Wait.plain with reds := true, sketches := true }

/-- A release at a scope waits for REDs, and from PACKAGE scope on for sketch posts (R225, R289). -/
def Wait.release (scope : Nat) : Wait := { Wait.plain with reds := true, sketches := decide (2 ≤ scope) }

/-- A HALT waits for the end of the strand's work (R320). -/
def Wait.atHalt : Wait := { Wait.plain with halt := true }

/-- Why an instruction does not retire: a precise exception, or a wait (R31). A wait names the L2 lines for which a BISnp goes out because
the host may hold them (R434). -/
inductive Stop where
  | trap (x : Exc)
  | wait (w : Wait) (lines : List Nat)
deriving DecidableEq, Repr

def trap {α : Type} (x : Exc) : Except Stop α := .error (.trap x)
def await {α : Type} (w : Wait) : Except Stop α := .error (.wait w [])

/-- A check that traps. -/
def check (ok : Bool) (x : Exc) : Except Stop Unit := if ok then .ok () else trap x

def raising {α : Type} (r : Except Exc α) : Except Stop α :=
  match r with
  | .ok a => .ok a
  | .error x => trap x

/-- The instruction has retired and its strand is at `pc`. -/
def Core.leave (c : Core) (pc : Word) : Core := { c with pc := pc, waitFrom := none, waiting := none }

/-- The instruction retires, and the next slot follows (R61). -/
def State.retire (s : State) : State := { s with core := s.core.leave (nextPc s.core.pc) }

/-- An instruction that has issued early retires with the results that it read then (R150, R353); an LDA whose acquire is still to come makes it
now (R290). -/
def State.takeEarly (s : State) (e : Early) : State :=
  let s := match e.acq with
    | some scope => s.acquireAt scope
    | none => s
  let c := e.xs.foldl (fun c r => c.setX r.1 r.2) s.core
  ({ s with core := e.ts.foldl (fun c r => c.setT r.1 r.2) c } : State).retire

/-- An instruction has left the reorder buffer: those that have issued behind it have one fewer before them. -/
def State.age (s : State) : State :=
  if s.core.waiting.isSome then s
  else { s with core := { s.core with
    early := (s.core.early.filter fun e => e.after != 0).map fun e => { e with after := e.after - 1 } } }

/-- An outcome, as it stands when the oldest instruction has retired in it. -/
def aged (r : Host.Outcome State Fault Refusal) : Host.Outcome State Fault Refusal :=
  match r with
  | .next t => .next t.age
  | .fault f => .fault f
  | .refused r => .refused r

/-- A wait that goes on keeps the REDs that have held it. -/
def Wait.since (w : Wait) (old : Option Wait) : Wait :=
  match old with
  | none => w
  | some v => { w with behind := v.behind ++ w.behind.filter fun b => !v.behind.contains b }

/-- The instruction waits: it stands at the same PC, and BISnps go out for the lines that hold it. -/
def State.hold (s : State) (w : Wait) (lines : List Nat) : State :=
  { s with
    core := { s.core with waiting := some (w.since s.core.waiting) }
    card := { s.card with snoops := s.card.snoops ++ lines.filter fun l => !s.card.snoops.contains l } }

/-- A result of an instruction that goes on in sequential flow. -/
def State.finish (s : State) (r : Except Stop State) : Host.Outcome State Fault Refusal :=
  match r with
  | .ok t => .next t.retire
  | .error (.trap x) => .next (s.enter x)
  | .error (.wait p lines) => .next (s.hold p lines)

/-- A result of an instruction that changes registers of the core only. -/
def State.finishCore (s : State) (r : Except Exc Core) : Host.Outcome State Fault Refusal :=
  match r with
  | .ok c => .next { s with core := c.leave (nextPc c.pc) }
  | .error x => .next (s.enter x)

/-- A result of an instruction that sets the PC itself. -/
def State.finishAt (s : State) (r : Except Stop State) : Host.Outcome State Fault Refusal :=
  match r with
  | .ok t => .next { t with core := t.core.leave t.core.pc }
  | .error (.trap x) => .next (s.enter x)
  | .error (.wait p lines) => .next (s.hold p lines)

/-- The instruction retires, and its trap is taken before the next one (R311): s.epc holds the next PC. -/
def State.enterAfter (s : State) (x : Exc) : State := s.retire.enter x

/-! ### Causes from outside -/

def Post.isRed (p : Post) : Bool := match p.kind with | .red .. => true | _ => false

def Post.isSketch (p : Post) : Bool :=
  match p.kind with
  | .red .. => false
  | .push .. => false
  | .message _ => false
  | _ => true

/-- The virtual address of the window of a side log (R332). -/
def sideLogVa (ctrl colour : Nat) : Nat := 0xFFF0000000000 + colour * 2 ^ 24 + ctrl * 2 ^ 20

/-- The pending entry of a side log that a class-12 report names in s.finfo (R313). -/
def Card.reported (k : Card) (x : Exc) : Option Post :=
  (k.sideLogs.flatMap fun l => l.entries.map fun e => (l, e)).findSome? fun p =>
    if p.2.state = .pending ∧ p.1.ctrl = x.finfo.toNat / 2 ^ 32 ∧ p.2.seq = x.finfo.toNat % 2 ^ 32 ∧
        x.faddr.toNat = sideLogVa p.1.ctrl p.1.colour + p.2.off then
      some p.2.post
    else none

/-- Whether the oldest instruction waits for older posted work that includes the operation that a class-12 report names (R316; a HALT does
not, DEDUCED, log entry 60). -/
def State.waitsFor (s : State) (x : Exc) : Bool :=
  match s.core.waiting, s.card.reported x with
  | some w, some p => (p.isRed && w.reds) || (p.isSketch && (w.sketches || w.record == some p.addr))
  | _, _ => false

/-- The asynchronous cause that is taken now (R316): class 15 in either mode, then class 13, then class 12, these two in user mode; a
class-12 report in supervisor mode too when the instruction waits for the operation that it names, and class 13 at a HALT that waits
(R421). None is taken before an atomic that has been sent retires (R120). -/
def State.asyncCause (s : State) : Option Exc :=
  let c := s.core
  if (c.waiting.map Wait.sent).getD false then none
  else match c.machineChecks with
    | x :: _ => some x
    | [] =>
      if c.supervisor then
        if (c.waiting.map Wait.halt).getD false && c.preempt.isSome then c.preempt else c.reports.find? s.waitsFor
      else match c.preempt with
        | some x => some x
        | none => c.reports.head?

/-- A taken cause is pending no longer; class 13 only once. -/
def Core.dropCause (c : Core) (x : Exc) : Core :=
  if x.cls = 15 then { c with machineChecks := c.machineChecks.erase x }
  else if x.cls = 13 then { c with preempt := none }
  else { c with reports := c.reports.erase x }

/-- The class-13 record when it is taken: s.faddr and s.finfo were fixed by the signal. -/
def State.takeAsync (s : State) : State :=
  match s.asyncCause with
  | none => s
  | some x => ({ s with core := s.core.dropCause x } : State).enter x

/-- A strand that runs only its supervisor handler (R32). -/
def Core.isParked (c : Core) : Bool := c.parked != .free

/-- ERET: the mode bits, then a held cause before any instruction at the return address (R316, R319). A resumed strand whose handler returns
to user mode is parked no longer; one that the pre-emption signal has reached stays parked until PREACK (R32, R328). -/
def State.returnTo (s : State) (pc : Word) : State :=
  let c := s.core.leave pc
  let c := { c with
    ps := returnPs c.ps
    fw := if c.ps.getLsbD 16 then c.fw.tail else []
    held := if c.parked = .resuming ∧ c.ps.getLsbD 16 = false then c.held.map fun h => { h with pc := some (h.pc.getD pc) } else c.held
    parked := if c.parked = .resuming ∧ c.ps.getLsbD 16 = false then .free else c.parked }
  let t := { s with core := c }
  if c.supervisor then t else t.takeAsync

/-! ### The strand's own accesses -/

def DrainWrite.range (w : DrainWrite) : Nat × Nat := (tagVa w.tag, tagVa w.tag + w.bytes.length)

/-- The bytes of a RED's type (R122). -/
def redBytes (type : Nat) : Nat := if type = 1 then 8 else 4

/-- The range of a post (R116, R219): a RED's bytes, a sketch record; pushes and messages have none (R246, R252). -/
def Post.range (p : Post) : Nat × Nat :=
  match p.kind with
  | .red _ t => (p.addr, p.addr + redBytes t)
  | .push .. => (0, 0)
  | .message _ => (0, 0)
  | _ => (p.addr, p.addr + 64)

/-- One strand by its launch and its index, whatever its incarnation and its core (R425). -/
def sameStrand (a b : Word) : Bool := a.extractLsb' 32 16 == b.extractLsb' 32 16 && a.extractLsb' 0 16 == b.extractLsb' 0 16

/-- Whether a post is the strand's in focus. -/
def State.mine (s : State) (p : Post) : Bool := sameStrand p.strand s.core.strand

/-- The strand's posts that its target has not applied: queued, under way, begun, or pending in a side log (R124, R336). -/
def State.ownPosts (s : State) : List Post :=
  s.core.posts ++ s.card.flight.filter s.mine ++ (s.card.jobs.map SketchJob.post).filter s.mine ++
    ((s.card.sideLogs.flatMap SideLog.entries).filter fun e => e.state == .pending && s.mine e.post).map LogEntry.post

/-- The strand's rendezvous updates that have not reached their objects (R277). -/
def State.ownUpdates (s : State) : List RzUpdate := s.card.rendezvous.filter fun r => sameStrand r.strand s.core.strand

/-- Ranges of the strand's store-type instructions that have retired and not performed, posts apart. -/
def State.ownStores (s : State) : List (Nat × Nat) :=
  (s.core.drain.map fun e => (e.lo, e.hi)) ++ s.ownUpdates.map fun r => (r.addr, r.addr + 16)

/-- The bounding box of rows at a base (R234). -/
def boxOf (base rows rowbytes : Nat) (stride : Int) : Int × Int :=
  let last : Int := base + (rows - 1 : Int) * stride
  (min (base : Int) last, max (base : Int) last + rowbytes)

/-- The rows of an empty copy store nothing. -/
def Transfer.dstBox (t : Transfer) : Nat × Nat :=
  if t.rows = 0 ∨ t.rowbytes = 0 then (0, 0) else
  let b := boxOf t.dst t.rows t.rowbytes t.dstride
  (b.1.toNat, b.2.toNat)

def Transfer.srcBox (t : Transfer) : Nat × Nat :=
  if t.rows = 0 ∨ t.rowbytes = 0 then (0, 0) else
  let b := boxOf t.src t.rows t.rowbytes t.sstride
  (b.1.toNat, b.2.toNat)

/-- The part of a channel's transfers that a load must not read yet: [max(lo, wm), hi) of the one being performed, the whole box of those
queued behind it (R238). -/
def CopyChannel.unread (c : CopyChannel) : List (Nat × Nat) :=
  match c.queue with
  | [] => []
  | t :: rest => (max t.dstBox.1 (if t.begun then c.wm.toNat else 0), t.dstBox.2) :: rest.map Transfer.dstBox

/-- Whether a collective is incomplete. -/
def Collective.open_ (k : Collective) : Bool := k.status != .done && k.status != .error

/-- The counter array of the record at an address, where it can be read. -/
def State.recordArray (s : State) (a : Nat) : Option (Nat × Nat) :=
  match s.recordCheck .atomic s.core.asid.toNat s.core.colour.toNat s.core.supervisor none a with
  | .ok r => some (r.base, r.base + r.arrayBytes)
  | .error _ => none

/-- The ranges of an LKSKADD: the record and its counter array (R255), or the whole address space while the record cannot be read, or a sketch
post of the strand has still to write it (R143). -/
def State.sketchRanges (s : State) (a : Nat) : List (Nat × Nat) :=
  match s.recordArray a with
  | some r => if s.ownPosts.any (fun p => p.isSketch && p.addr == a) then [(0, 2 ^ 52)] else [(a, a + 64), r]
  | none => [(0, 2 ^ 52)]

/-- What a collective's ranges are now: those of an LKSKADD that had no record to read are narrowed once it can read it (R143). -/
def State.rangesNow (s : State) (k : Collective) : List (Nat × Nat) := if k.ranges = [(0, 2 ^ 52)] then s.sketchRanges k.addr else k.ranges

/-- Ranges of the strand's incomplete collectives (R255). -/
def State.ownColls (s : State) : List (Nat × Nat) :=
  (s.card.colls.filter fun k => sameStrand k.strand s.core.strand && k.open_).flatMap s.rangesNow

/-- A load of a range may issue: no older store, RED, sketch post or collective of the strand that overlaps it is unperformed (R116,
R124, R145, R255), and no incomplete transfer covers it above its watermark (R238). -/
def State.loadClear (s : State) (r : Nat × Nat) : Bool :=
  (s.ownStores.all fun q => !overlap r q) && (s.ownPosts.all fun p => !overlap r p.range) &&
    (s.ownColls.all fun q => !overlap r q) &&
    s.core.copies.toList.all fun c => c.unread.all fun q => !overlap r q

/-- The wait of a load, with the unperformed REDs and collectives that it meets (R124, R255): a RED has a scope, a collective performs at the
PACKAGE coherence point (R256). -/
def State.loadWait (s : State) (r : Nat × Nat) : Wait :=
  { Wait.plain with behind := ((s.ownPosts.filter fun p => p.isRed && overlap r p.range).map fun p => (p.range, p.scope)) ++
      ((s.ownColls.filter fun q => overlap r q).map fun q => ((max r.1 q.1, min r.2 q.2), 2)) }

/-- Where a RED performs: at the coherence point of its scope (R122, R292), which in the sheaf aperture is the owner's stash. The stash of a
window is the unit that performs it (R123), not the place (DEDUCED, log entry 62). -/
def State.redPoint (s : State) (scope va : Nat) : Point := s.pointOf scope va

/-- A load that has waited for REDs reads their bytes through to the coherence points of their scopes (R124). -/
def State.readThrough (s : State) : State :=
  ((s.core.waiting.map Wait.behind).getD []).foldl
    (fun s b => (s.modifyWith (s.redPoint b.2 b.1.1) b.1.1 (b.1.2 - b.1.1) fun _ => none).2) s

/-- No incomplete transfer has a box that a range meets (R237). -/
def State.copiesClear (s : State) (r : Nat × Nat) : Bool :=
  s.core.copies.toList.all fun c => c.queue.all fun t => !overlap r t.srcBox && !overlap r t.dstBox

/-- How many entries of the range table the strand's store-type instructions hold: the nonempty ranges of those that have retired and not
performed, a collective with one entry (R349). -/
def State.rangesHeld (s : State) : Nat :=
  (s.ownStores.filter fun r => decide (r.1 < r.2)).length + (s.ownPosts.filter fun p => decide (p.range.1 < p.range.2)).length +
    (s.card.colls.filter fun k => sameStrand k.strand s.core.strand && k.open_).length

/-- The range table has an entry for a range that is not empty: 64 of them, at a command processor 16 (R344, R346). -/
def State.rangeRoom (s : State) (r : Nat × Nat) : Bool :=
  decide (r.2 ≤ r.1) || decide (s.rangesHeld < if s.core.kind = .command then 16 else 64)

/-- A store-type instruction may dispatch and retire: the range table has room, no RED or collective that overlaps it is unperformed, and no
incomplete transfer's box meets it (R124, R237, R255, R346). -/
def State.storeClear (s : State) (r : Nat × Nat) : Bool :=
  s.rangeRoom r && (s.ownPosts.all fun p => !p.isRed || !overlap r p.range) && (s.ownColls.all fun q => !overlap r q) && s.copiesClear r

/-- A RED may enter the post queue, which itself keeps REDs in order (R124). -/
def State.postClear (s : State) (r : Nat × Nat) : Bool := s.rangeRoom r && (s.ownColls.all fun q => !overlap r q) && s.copiesClear r

/-- The store drain is empty: every retired store of the strand has performed. -/
def State.drained (s : State) : Bool := s.core.drain.isEmpty

/-- A release at a scope may perform: older stores, rendezvous updates and REDs have performed, and at PACKAGE or SYSTEM scope older sketch
posts (R225, R289). -/
def State.releaseReady (s : State) (scope : Nat) : Bool :=
  s.drained && s.ownUpdates.isEmpty && s.ownPosts.all fun p => !p.isRed && (decide (scope < 2) || !p.isSketch)

/-- Every older post has performed: a message once it is accepted (R252). -/
def State.postsDone (s : State) : Bool := s.ownPosts.isEmpty && s.core.unaccepted == 0

/-- Every older store-type instruction of the strand has performed: stores, posts, copies, collectives and messages. -/
def State.allPerformed (s : State) : Bool :=
  s.drained && s.ownUpdates.isEmpty && s.postsDone && s.ownColls.isEmpty && s.core.copies.toList.all fun c => c.queue.isEmpty

/-! ### Checks of addresses -/

/-- The readonly object that meets a range, at its first byte there (R376). -/
def State.readonlyByte (s : State) (lo hi : Nat) : Option Nat :=
  match clusterOf s.core.num with
  | none => none
  | some k =>
    if (s.clusterAt k).objects.isEmpty then none
    else ((List.range ((hi + 127) / 128 - lo / 128)).map fun i => max lo ((lo / 128 + i) * 128)).find? fun a =>
      (s.clusterAt k).objects.any fun o => o.cls == .readonly && o.holds a

/-- The first byte of a range whose page fails a check, with the detail. -/
def deniedByte (check : Nat → Option Nat) (lo hi : Nat) : Option (Nat × Nat) :=
  if hi ≤ lo then none
  else ((List.range ((hi - 1) / 65536 - lo / 65536 + 1)).map fun i => max lo ((lo / 65536 + i) * 65536)).findSome? fun b =>
    (check b).map fun d => (b, d)

/-- The class-3 fault of an access under a check of its pages, at the first failing byte; stores are also checked against readonly
objects. Where both fail at one byte, the page's detail stands (R114 gives no order, DESIGN CHOICE, log entry 45). -/
def State.faultUnder (s : State) (check : Nat → Option Nat) (a : Access) (lo hi : Nat) : Option (Nat × Nat) :=
  let ro := match a with
    | .store => (s.readonlyByte lo hi).map fun b => (b, 6)
    | .atomic => (s.readonlyByte lo hi).map fun b => (b, 6)
    | _ => none
  match deniedByte check lo hi, ro with
  | some (b, d), some (b', d') => if b ≤ b' then some (b, d) else some (b', d')
  | some p, none => some p
  | none, q => q

/-- The class-3 fault of an access of the strand, from the permission TLB to the home (R385, R366). -/
def State.accessFault (s : State) (a : Access) (lo hi : Nat) : Option (Nat × Nat) :=
  s.faultUnder (s.checkAccess a s.core.asid.toNat s.core.colour.toNat s.core.supervisor) a lo hi

/-- The class-3 fault that the permission TLB alone shows (R234). -/
def State.boxFault (s : State) (a : Access) (lo hi : Nat) : Option (Nat × Nat) :=
  s.faultUnder (s.ownAccess a s.core.asid.toNat s.core.colour.toNat s.core.supervisor) a lo hi

/-- A peer access with the bridge down (R443): the class-11 fault, at its line. -/
def State.bridgeFault (s : State) (lo hi : Nat) : Option Nat :=
  if s.card.bridge.up then none
  else ((List.range ((hi + 127) / 128 - lo / 128)).map fun i => max lo ((lo / 128 + i) * 128)).find? fun b =>
    match (s.card.translate s.core.asid.toNat s.core.colour.toNat b).map Leaf.target with
    | some .peer => true
    | _ => false

/-- The writes of a store of n bytes, split at 64 KiB page boundaries, with the targets that its checks found (R147). -/
def State.pieces (s : State) (va : Nat) (bs : List Byte) : List DrainWrite :=
  let n := bs.length
  (List.range ((va + n - 1) / 65536 - va / 65536 + 1)).filterMap fun i =>
    let a := max va ((va / 65536 + i) * 65536)
    let b := min (va + n) ((va / 65536 + i + 1) * 65536)
    match s.card.translate s.core.asid.toNat s.core.colour.toNat a with
    | some l => some ⟨tagOf s.core.asid.toNat a, l.target, (bs.drop (a - va)).take (b - a)⟩
    | none => none

/-! ### Host-held lines -/

/-- The lines that a change of the machine merges at L2 while the host may hold them: a merge clears their host bits (R434). -/
def State.heldBy (s t : State) : List Nat :=
  if s.card.hostLines.isEmpty then [] else s.card.hostLines.filter fun l => !t.card.hostLines.contains l

/-- A change that merges at L2: it waits, with a BISnp sent for each line that the host may hold, until the host has answered (R434). -/
def State.whenMerged (s : State) (w : Wait) (t : State) : Except Stop State :=
  match s.heldBy t with
  | [] => .ok t
  | lines => .error (.wait w lines)

/-- The lines that a release at a scope would merge into L2 and that the host may hold (R374, R434). -/
def State.releaseHeld (s : State) (scope : Nat) : List Nat := s.heldBy (s.releaseAt scope)

end Sys2Proof.Machine
end

