-- ==== Sys2Proof/Machine/Functions.lean ====
section
/-! DEFINITION. The vector engine's functions (R188, R189): exact values, or rationals that lie within 2^-400 of the exact irrational
value and are no representable number (DEDUCED, log entry 12), then rounding (R178) or the faithful choice (DESIGN CHOICE, log entry 11). -/

namespace Sys2Proof.Machine

/-- Places of the fixed-point evaluation. -/
def fixBits : Nat := 640

/-- 1.0 in fixed point. -/
def fixOne : Nat := 2 ^ fixBits

/-- Σ x^k/k! from term k on. -/
def expSeries : Nat → Nat → Nat → Nat → Nat
  | 0, _, _, _ => 0
  | fuel + 1, k, x, term => term + expSeries fuel (k + 1) x (term * x / fixOne / (k + 1))

/-- e^x for a fixed-point x below 1. -/
def expFix (x : Nat) : Nat := expSeries 170 0 x fixOne

/-- Σ t^(2k+1)/(2k+1) with t2 = t². -/
def atanhSeries : Nat → Nat → Nat → Nat → Nat
  | 0, _, _, _ => 0
  | fuel + 1, k, t2, term => term / (2 * k + 1) + atanhSeries fuel (k + 1) t2 (term * t2 / fixOne)

/-- artanh t for a fixed-point t of at most 1/3. -/
def atanhFix (t : Nat) : Nat := atanhSeries 230 0 (t * t / fixOne) t

/-- ln 2. -/
def ln2Fix : Nat := 2 * atanhFix (fixOne / 3)

/-- Alternating Σ (−1)^k t^(2k+1)/(2k+1) as sums of the even and odd terms. -/
def atanSeries : Nat → Nat → Nat → Nat → Nat × Nat
  | 0, _, _, _ => (0, 0)
  | fuel + 1, k, t2, term =>
    let (a, b) := atanSeries fuel (k + 1) t2 (term * t2 / fixOne)
    (term / (2 * k + 1) + b, a)

/-- arctan(1/n) in fixed point. -/
def atanInv (n : Nat) : Nat :=
  let t := fixOne / n
  let (a, b) := atanSeries 160 0 (t * t / fixOne) t
  a - b

/-- π by Machin's formula. -/
def piFix : Nat := 16 * atanInv 5 - 4 * atanInv 239

/-- e^(−y) for a fixed-point y, as a fixed-point number. -/
def expNegFix (y : Nat) : Nat :=
  let l := ln2Fix
  let n := y / l + 1
  expFix (n * l - y) / 2 ^ n

/-- The exact or nearly exact magnitude of a function's value, with its sign. -/
structure FnVal where
  neg : Bool
  num : Nat
  den : Nat
deriving DecidableEq, Repr

/-- A fixed-point magnitude that is known to be irrational: an odd place is added below it. -/
def irrational (neg : Bool) (m : Nat) : FnVal := ⟨neg, 2 * m + 1, 2 * fixOne⟩

/-- 2^x for a finite x (exact for an integer x; beyond every format's range a value of the same rounding). -/
def exp2Fn (neg : Bool) (num den : Nat) : FnVal :=
  if num ≥ 4096 * den then (if neg then ⟨false, 1, 2 ^ 4096⟩ else ⟨false, 2 ^ 4096, 1⟩)
  else
    let q := num / den
    let r := num % den
    if r = 0 then (if neg then ⟨false, 1, 2 ^ q⟩ else ⟨false, 2 ^ q, 1⟩)
    else if neg then
      let f := (den - r) * fixOne / den
      ⟨false, 2 * expFix (f * ln2Fix / fixOne) + 1, 2 * fixOne * 2 ^ (q + 1)⟩
    else
      let f := r * fixOne / den
      ⟨false, (2 * expFix (f * ln2Fix / fixOne) + 1) * 2 ^ q, 2 * fixOne⟩

/-- log2 of a positive finite value (exact for a power of two). -/
def log2Fn (num den : Nat) : FnVal :=
  let k := floorLog2 num den
  let (m, d) := if 0 ≤ k then (num, den * 2 ^ k.toNat) else (num * 2 ^ (-k).toNat, den)
  if m = d then ⟨decide (k < 0), k.natAbs, 1⟩
  else
    let l := 2 * atanhFix ((m - d) * fixOne / (m + d)) * fixOne / ln2Fix
    if 0 ≤ k then irrational false (k.toNat * fixOne + l)
    else irrational true ((-k).toNat * fixOne - l)

/-- tanh of a finite nonzero value. -/
def tanhFn (neg : Bool) (num den : Nat) : FnVal :=
  if num ≥ 200 * den then ⟨neg, 2 ^ 500 - 1, 2 ^ 500⟩
  else
    let e := expNegFix (2 * num * fixOne / den)
    irrational neg ((fixOne - e) * fixOne / (fixOne + e))

/-- 1/(1 + e^−x) of a finite nonzero value. -/
def sigmFn (neg : Bool) (num den : Nat) : FnVal :=
  if num ≥ 400 * den then (if neg then ⟨false, 1, 2 ^ 500⟩ else ⟨false, 2 ^ 500 - 1, 2 ^ 500⟩)
  else
    let e := expNegFix (num * fixOne / den)
    irrational false (if neg then e * fixOne / (fixOne + e) else fixOne * fixOne / (fixOne + e))

/-- Σ x^(2n+1)/(2n+1)!! from term n on, with x2 = x². -/
def erfSeries : Nat → Nat → Nat → Nat → Nat
  | 0, _, _, _ => 0
  | fuel + 1, n, x2, term => term + erfSeries fuel (n + 1) x2 (term * x2 / fixOne / (2 * n + 3))

/-- erf(x/√2) of a fixed-point x of at most 20. -/
def erfFix (x : Nat) : Nat :=
  let x2 := x * x / fixOne
  let s := erfSeries 1100 0 x2 x
  let c := isqrt (2 * fixOne * fixOne / piFix * fixOne)
  c * (expNegFix (x2 / 2) * s / fixOne) / fixOne

/-- x·Φ(x) of a finite nonzero value. -/
def geluFn (neg : Bool) (num den : Nat) : FnVal :=
  if num ≥ 20 * den then (if neg then ⟨true, 1, 2 ^ 300⟩ else ⟨false, num * (2 ^ 300 - 1), den * 2 ^ 300⟩)
  else
    let x := num * fixOne / den
    let e := erfFix x
    let p := if neg then (fixOne - e) / 2 else (fixOne + e) / 2
    ⟨neg, num * (2 * p + 1), den * (2 * fixOne)⟩

/-- A function's result before rounding: a code that is fixed (a special value), or a value to round. -/
inductive FnOut where
  | special (v : Val) (flags : FpFlags)
  | value (v : FnVal)
deriving DecidableEq, Repr

/-- The functions of R188 that are faithful, by opcode, with the special values of R189. -/
def fnOut (op : BitVec 8) (v : Val) : FnOut :=
  match v with
  | .nan s => .special (.nan false) (if s then flagInvalid else 0#5)
  | .inf neg =>
    match op.toNat with
    | 0x91 => if neg then .special (.fin false 0 1) 0#5 else .special (.inf false) 0#5
    | 0x92 => if neg then .special (.nan false) flagInvalid else .special (.inf false) 0#5
    | 0x94 => if neg then .special (.nan false) flagInvalid else .special (.fin false 0 1) 0#5
    | 0x96 => .special (.fin neg 1 1) 0#5
    | 0x97 => if neg then .special (.fin false 0 1) 0#5 else .special (.fin false 1 1) 0#5
    | _ => if neg then .special (.fin true 0 1) 0#5 else .special (.inf false) 0#5
  | .fin neg num den =>
    if num = 0 then
      match op.toNat with
      | 0x91 => .special (.fin false 1 1) 0#5
      | 0x92 => .special (.inf true) flagDivZero
      | 0x94 => .special (.inf neg) flagDivZero
      | 0x97 => .special (.fin false 1 2) 0#5
      | _ => .special (.fin neg 0 1) 0#5
    else
      match op.toNat with
      | 0x91 => .value (exp2Fn neg num den)
      | 0x92 => if neg then .special (.nan false) flagInvalid else .value (log2Fn num den)
      | 0x94 =>
        if neg then .special (.nan false) flagInvalid
        else .value ⟨false, (sqrtRat den num).1, (sqrtRat den num).2⟩
      | 0x96 => .value (tanhFn neg num den)
      | 0x97 => .value (sigmFn neg num den)
      | _ => .value (geluFn neg num den)

/-- A faithful FP32 result (R188): the exact value when representable, otherwise the neighbour that the free choice names. -/
def roundFaithful (op : BitVec 8) (input : Nat) (v : FnVal) : Rounded :=
  let up := Config.faithfulUp op (BitVec.ofNat 32 input)
  let m := if up then (if v.neg then Mode.down else Mode.up) else Mode.zero
  let r := roundFin fp32 m false v.neg v.num v.den
  if r.flags &&& flagOverflow ≠ 0#5 then ⟨overflowCode fp32 v.neg .nearest false, r.flags⟩ else r

/-- A faithful function on one element: correctly rounded for FP16 and BF16, faithful for FP32 (R188, R189). -/
def faithfulFn (op : BitVec 8) (f : FloatFmt) (input : Nat) : Rounded :=
  match fnOut op (decodeFloat f input) with
  | .special v fl => ⟨(roundVal f .nearest false v).code, fl⟩
  | .value v => if f = fp32 then roundFaithful op input v else roundFin f .nearest false v.neg v.num v.den

end Sys2Proof.Machine
end

