-- ==== Sys2Proof/Machine/VectorOps.lean ====
section
/-! DEFINITION. What the vector instructions share (R175-R181): the checks of R180 in order, the second operand by form (R177), rounding
under R178, exceptions under R179, and the elementwise loop. -/

namespace Sys2Proof.Machine

/-- A fault of the vector engine (R130, R180). -/
def vfault (op : BitVec 8) (cls detail role : Nat) (reg : BitVec 5) : Exc :=
  ⟨cls, detail, 0#64, engineInfo 0 4 role reg.toNat op⟩

/-- Steps 1 and 2 of R129 for one tile operand. -/
def needTile (op : BitVec 8) (role : Nat) (reg : BitVec 5) (t : Tile) (accept : BitVec 5 → Bool) : Except Exc Unit := do
  need (t.rows != 0) (vfault op 2 0 role reg)
  need (accept t.fmt) (vfault op 2 1 role reg)

/-- The four forms of R177. -/
inductive Form where
  | tile
  | xs
  | row
  | col
deriving DecidableEq, Repr

def formOf (form : BitVec 3) : Form :=
  match form.toNat with
  | 1 => .xs
  | 2 => .row
  | 3 => .col
  | _ => .tile

/-- The size checks of R177 on a second or third operand. -/
def needForm (op : BitVec 8) (role : Nat) (reg : BitVec 5) (form : Form) (ta t : Tile) : Except Exc Unit :=
  match form with
  | .xs => .ok ()
  | .tile => do
    need (t.rows == ta.rows) (vfault op 2 2 role reg)
    need (t.rowbytes == ta.rowbytes) (vfault op 2 3 role reg)
  | .row => need (t.rowbytes == ta.rowbytes) (vfault op 2 3 role reg)
  | .col => need (t.rows == ta.rows) (vfault op 2 2 role reg)

/-- b[m][n] for every element of ta (R177). -/
def operandB (form : Form) (ta tb : Tile) (x : Word) : List (List Nat) :=
  match form with
  | .xs => List.replicate ta.rows (List.replicate ta.count (putElem ta.fmt x))
  | .tile => tb.elems
  | .row => List.replicate ta.rows (tb.elems.headD [])
  | .col => tb.elems.map fun r => List.replicate ta.count (r.headD 0)

/-- The result of one element and what it raised. -/
abbrev ElemOut := Nat × FpFlags

/-- One row of an elementwise operation on up to three operands; f gets the element index. -/
def mapRow3 (f : Nat → Nat → Nat → Nat → ElemOut) : Nat → List Nat → List Nat → List Nat → List ElemOut
  | e, a :: as, b :: bs, c :: cs => f e a b c :: mapRow3 f (e + 1) as bs cs
  | _, _, _, _ => []

/-- An elementwise operation row by row; row m starts at element index 256·m (R46). -/
def mapTile3 (f : Nat → Nat → Nat → Nat → ElemOut) : Nat → List (List Nat) → List (List Nat) → List (List Nat) → List (List ElemOut)
  | m, a :: as, b :: bs, c :: cs => mapRow3 f (256 * m) a b c :: mapTile3 f (m + 1) as bs cs
  | _, _, _, _ => []

/-- The codes of a result. -/
def codesOf (r : List (List ElemOut)) : List (List Nat) := r.map fun row => row.map Prod.fst

/-- The elements of a row that raised something, ascending from element index e. -/
def eventsRow : Nat → List ElemOut → List (Nat × FpFlags)
  | _, [] => []
  | e, (_, f) :: rest => if f = 0#5 then eventsRow (e + 1) rest else (e, f) :: eventsRow (e + 1) rest

def eventsFrom : Nat → List (List ElemOut) → List (Nat × FpFlags)
  | _, [] => []
  | m, row :: rest => eventsRow (256 * m) row ++ eventsFrom (m + 1) rest

/-- Every element that raised something, in ascending element index. -/
def eventsOf (r : List (List ElemOut)) : List (Nat × FpFlags) := eventsFrom 0 r

/-- The rounding mode of one element under the rnd field (R178): a draw for .SR, else nearest even. -/
def Core.modeFor (c : Core) (rnd : BitVec 2) (e : Nat) : Mode :=
  if rnd = 1#2 then .stochastic ((srDraw c.seed c.serial e).setWidth 32) else .nearest

/-- Rounding of an exact result under R178, with the exceptions the operation itself raised. -/
def Core.roundElem (c : Core) (f : FloatFmt) (rnd : BitVec 2) (inf : Bool) (e : Nat) (r : Val × FpFlags) : ElemOut :=
  let o := roundVal f (c.modeFor rnd e) inf r.1
  (o.code, o.flags ||| r.2)

/-- The FP exceptions of an instruction at retire (R54, R179): the fault of the enabled exception, with role td, or the core with
the flags set. -/
def Core.settle (c : Core) (op : BitVec 8) (engine : Nat) (td : BitVec 5) (events : List (Nat × FpFlags)) : Except Exc Core :=
  match enabledFault c.fptrap events with
  | some (detail, e) => .error ⟨5, detail, BitVec.ofNat 64 e, engineInfo (e / 256 % 64) engine 0 td.toNat op⟩
  | none => .ok (c.orFlags (allFlags events))

/-- The end of a vector instruction that writes td under a record: exceptions, then the tile, then the SR count. -/
def Core.finishTile (c : Core) (op : BitVec 8) (td : BitVec 5) (rows rowbytes : Nat) (fmt : BitVec 5) (quant : BitVec 4)
    (rnd : BitVec 2) (r : List (List ElemOut)) : Except Exc Core := do
  let c' ← c.settle op 4 td (eventsOf r)
  .ok ((c'.setT td (mkTile rows rowbytes fmt quant (codesOf r))).countSr (rnd == 1#2))

/-- R178: .SR or .INF with an integer format is class 2 detail 0x01. -/
def needFloatRnd (op : BitVec 8) (role : Nat) (reg : BitVec 5) (fmt : BitVec 5) (rnd : BitVec 2) (inf : Bool) : Except Exc Unit :=
  need ((floatOf fmt).isSome || (rnd == 0#2 && !inf)) (vfault op 2 1 role reg)

/-- The produced record from hN and fmt: row bytes a multiple of the element size (R127, R35). -/
def needProduced (op : BitVec 8) (td fmt : BitVec 5) (rowbytes : Nat) : Except Exc Unit :=
  need (rowbytesOk fmt rowbytes) (vfault op 2 5 0 td)

/-- The checks of a two-operand elementwise instruction (R180): limits, engine, ta, tb, the format pair, the sizes. -/
def Core.checkBinary (c : Core) (op : BitVec 8) (td ta tb : BitVec 5) (form : BitVec 3) (accept : BitVec 5 → Bool)
    (rnd : BitVec 2) (inf : Bool) : Except Exc Unit := do
  c.needTiles op (if formOf form = .xs then [td, ta] else [td, ta, tb])
  c.needEngine op 4
  needTile op 1 ta (c.tr ta) accept
  needFloatRnd op 1 ta (c.tr ta).fmt rnd inf
  if formOf form ≠ .xs then
    needTile op 2 tb (c.tr tb) accept
    need ((c.tr tb).fmt == (c.tr ta).fmt) (vfault op 2 4 2 tb)
    needForm op 2 tb (formOf form) (c.tr ta) (c.tr tb)

/-- A two-operand elementwise instruction that copies the record of ta. -/
def Core.binary (c : Core) (op : BitVec 8) (td ta tb : BitVec 5) (xs : BitVec 6) (form : BitVec 3) (accept : BitVec 5 → Bool)
    (rnd : BitVec 2) (inf : Bool) (f : Nat → Nat → Nat → ElemOut) : Except Exc Core := do
  c.checkBinary op td ta tb form accept rnd inf
  let a := (c.tr ta)
  let b := operandB (formOf form) a (c.tr tb) (c.xr xs)
  c.finishTile op td a.rows a.rowbytes a.fmt a.quant rnd (mapTile3 (fun e x y _ => f e x y) 0 a.elems b a.elems)

/-- A one-operand elementwise instruction that copies the record of ta. -/
def Core.unary (c : Core) (op : BitVec 8) (td ta : BitVec 5) (accept : BitVec 5 → Bool) (rnd : BitVec 2) (inf : Bool)
    (f : Nat → Nat → ElemOut) : Except Exc Core := do
  c.needTiles op [td, ta]
  c.needEngine op 4
  needTile op 1 ta (c.tr ta) accept
  needFloatRnd op 1 ta (c.tr ta).fmt rnd inf
  let a := (c.tr ta)
  c.finishTile op td a.rows a.rowbytes a.fmt a.quant rnd (mapTile3 (fun e x _ _ => f e x) 0 a.elems a.elems a.elems)

/-- Arithmetic on F by an exact operation and on I by integers modulo 2^w (R182). -/
def Core.arith (c : Core) (fmt : BitVec 5) (rnd : BitVec 2) (inf : Bool) (ff : Val → Val → Val × FpFlags) (fi : Int → Int → Int)
    (e a b : Nat) : ElemOut :=
  match floatOf fmt with
  | some f => c.roundElem f rnd inf e (ff (decodeFloat f a) (decodeFloat f b))
  | none => (wrap (elemBits fmt) (fi (intOf fmt a) (intOf fmt b)), 0#5)

/-- VMIN, VMAX (R182): FMIN and FMAX on F, the signed integer on I. -/
def minMaxElem (fmt : BitVec 5) (takeMin : Bool) (a b : Nat) : ElemOut :=
  match floatOf fmt with
  | some f => minMaxCode f takeMin a b
  | none => (if decide (intOf fmt a ≤ intOf fmt b) = takeMin then a else b, 0#5)

end Sys2Proof.Machine
end

