-- ==== Sys2Proof/Machine/Operands.lean ====
section
/-! DEFINITION. Operand forms of the memory instructions: the scalar address with its checks (R114), and the rows of the tile memory
instructions with theirs (R132-R135). -/

namespace Sys2Proof.Machine

/-! ### Scalar addresses -/

/-- EA of format I (R114). -/
def Core.ea (c : Core) (xa : BitVec 6) (imm : BitVec 64) : Word := c.xr xa + imm

/-- The bytes of a size field (R78). -/
def sizeBytes (size : BitVec 2) : Nat := 2 ^ size.toNat

/-- The address checks of R114: canonical, aligned, then translation and permission, and for a peer address the bridge (R443). -/
def State.scalarChecks (s : State) (a : Access) (op : BitVec 8) (xd : BitVec 6) (ea : Word) (n : Nat) : Except Stop Unit := do
  let info := scalarInfo xd op
  check (ea.toNat < 2 ^ 52) ⟨4, 1, ea, info⟩
  check (ea.toNat % n == 0) ⟨4, 0, ea, info⟩
  match s.accessFault a ea.toNat (ea.toNat + n) with
  | some (_, d) => trap ⟨3, d, ea, info⟩
  | none => .ok ()
  match a, s.bridgeFault ea.toNat (ea.toNat + n) with
  | .store, _ => .ok ()
  | _, some _ => trap ⟨11, 0, BitVec.ofNat 64 (ea.toNat / 128 * 128), info⟩
  | _, none => .ok ()

/-- A loaded value extended to 64 bits (R115). -/
def extendBytes (n : Nat) (sx : Bool) (v : Nat) : Word :=
  if sx then signExtendFrom (8 * n) (BitVec.ofNat 64 v) else BitVec.ofNat 64 v

/-! ### Rows of tiles -/

/-- base of R132 and R134. -/
def Core.rowBase (c : Core) (xbase : BitVec 6) (imm : BitVec 32) : Int := ((c.xr xbase).toNat : Int) + imm.toInt

/-- The addresses of rows at a stride (R132). -/
def strideRows (base stride : Int) (rows : Nat) : List Int := (List.range rows).map fun (m : Nat) => base + (m : Int) * stride

/-- lo and hi of R132: the bounding box of rows. -/
def rowsLo (as : List Int) : Int := as.foldl min (as.headD 0)
def rowsHi (as : List Int) (rowbytes : Nat) : Int := as.foldl max (as.headD 0) + rowbytes

/-- s.finfo of a tile memory instruction: engine 1 (R130). -/
def tileInfo (row role tile : Nat) (op : BitVec 8) : Word := engineInfo row 1 role tile op

/-- The first row whose bytes fail translation or permission, with byte and detail (R135 order 6); a store then fails at a readonly object
that its range meets between the rows (R376; row 0, as no row applies). -/
def State.rowsFault (s : State) (a : Access) (lo hi rowbytes : Nat) (as : List Int) : Option (Nat × Nat × Nat) :=
  match (as.zipIdx).findSome? fun p => (s.accessFault a p.1.toNat (p.1.toNat + rowbytes)).map fun q => (p.2, q.1, q.2) with
  | some f => some f
  | none => if a = .store then (s.readonlyByte lo hi).map fun b => (0, b, 6) else none

/-- The address checks of R135 from order 3 on. `bound`: the base and the length when the bound field names a register other than x0. A lo of 2^64
or more does not fit s.faddr, which takes it modulo 2^64 (R135 states none, DESIGN CHOICE, log entry 52). -/
def State.rowChecks (s : State) (a : Access) (op : BitVec 8) (tile : Nat) (lo hi : Int) (elem rowbytes : Nat) (bound : Option (Nat × Nat))
    (as : List Int) : Except Stop Unit := do
  let info (row : Nat) := tileInfo row 0 tile op
  check (0 ≤ lo && hi ≤ 2 ^ 52) ⟨4, 1, if lo < 0 then 0#64 else BitVec.ofInt 64 lo, info 0⟩
  match (as.zipIdx).find? fun p => p.1 % (elem : Int) != 0 with
  | some p => trap ⟨4, 0, BitVec.ofInt 64 p.1, info p.2⟩
  | none => .ok ()
  match bound with
  | some (b, n) => check (b ≤ lo && hi ≤ b + n) ⟨4, 3, BitVec.ofInt 64 lo, info 0⟩
  | none => .ok ()
  match s.rowsFault a lo.toNat hi.toNat rowbytes as with
  | some (m, b, d) => trap ⟨3, d, BitVec.ofNat 64 b, info m⟩
  | none => .ok ()
  match a, (as.zipIdx).findSome? fun p => (s.bridgeFault p.1.toNat (p.1.toNat + rowbytes)).map fun b => (p.2, b) with
  | .load, some (m, b) => trap ⟨11, 0, BitVec.ofNat 64 (b / 128 * 128), info m⟩
  | _, _ => .ok ()

end Sys2Proof.Machine
end

