-- ==== Sys2Proof/Machine/Objects.lean ====
section
/-! DEFINITION. Coherence objects (R300-R302), stash windows and the sheaf aperture (R303-R306). -/

namespace Sys2Proof.Machine

/-! ### Objects -/

/-- A descriptor (R300): its 32 bytes as a number. -/
def State.descriptor (s : State) (va : Nat) : Nat := ofBytes (s.peekBytes va 32)

/-- A field of bits of a descriptor. -/
def field (d lo n : Nat) : Nat := d / 2 ^ lo % 2 ^ n

/-- The object that a descriptor describes, for the launch that declares it; none when a field does not meet R300 or the last byte is
not below 2^52. -/
def objectOf (d : Nat) (launch : BitVec 16) : Option ObjEntry :=
  let cls : Option ObjClass := match field d 192 3 with
    | 0 => some .priv
    | 1 => some .readonly
    | 2 => some .cluster
    | 3 => some .package
    | 4 => some .system
    | _ => none
  let rows := field d 160 32
  let rb := field d 128 32
  let stride := field d 64 52
  let base := field d 0 52
  let ok := field d 195 61 == 0 && field d 116 12 == 0 && field d 52 12 == 0 &&
    decide (1 ≤ rows) && decide (rows ≤ 2 ^ 24) &&
    decide (128 ≤ rb) && decide (rb ≤ 2 ^ 31) && rb % 128 == 0 &&
    stride % 128 == 0 && (rows == 1 || decide (rb ≤ stride)) && base % 128 == 0 &&
    decide (base + (rows - 1) * stride + rb ≤ 2 ^ 52)
  match cls with
  | some c => if ok then some ⟨c, rows, rb, stride, base, launch⟩ else none
  | none => none

/-- The bounding box of an object. -/
def ObjEntry.box (o : ObjEntry) : Nat × Nat := (o.base, o.base + (o.rows - 1) * o.stride + o.rowbytes)

/-- The launch id of s.strand (R25). -/
def Core.launchId (c : Core) : BitVec 16 := c.strand.extractLsb' 32 16

/-- s.finfo of the object and window instructions (R313): index field, opcode. -/
def indexInfo (index : Nat) (op : BitVec 8) : Word := BitVec.ofNat 64 (index * 256 + op.toNat)

/-- The checks that OBJDECL and OBJDROP share (R301 1-2, R465): the cluster, the descriptor's alignment and its own load. -/
def State.descriptorChecks (s : State) (op : BitVec 8) (xa : BitVec 6) : Except Stop Nat := do
  let a := s.core.xr xa
  let info := indexInfo 0 op
  check (s.core.kind == .compute && (clusterOf s.core.num).isSome) ⟨6, 0, 0#64, engineInfo 0 0 0 0 op⟩
  check (a.toNat % 32 == 0) ⟨4, 0, a, info⟩
  check (decide (a.toNat < 2 ^ 52)) ⟨4, 1, a, info⟩
  match s.accessFault .load a.toNat (a.toNat + 32) with
  | some (b, d) => trap ⟨3, d, BitVec.ofNat 64 b, info⟩
  | none => .ok ()
  if !s.loadClear (a.toNat, a.toNat + 32) then await (s.loadWait (a.toNat, a.toNat + 32)) else .ok (s.descriptor a.toNat)

/-- The lines of a cluster cache that hold bytes of an object, by tag. -/
def Cluster.linesIn (c : Cluster) (asid : Nat) (o : ObjEntry) : List Nat :=
  (c.lines.filter fun l => (tagAsid l.tag == asid || tagAsid l.tag == 0) && o.holds (tagVa l.tag)).map CacheLine.tag

/-- Whether a granule of a window holds bytes of an object. -/
def Window.granuleIn (w : Window) (o : ObjEntry) (i : Nat) : Bool :=
  decide (w.off ≤ i * 128) && decide (i * 128 < w.off + 2 ^ w.lg) && o.holds (w.va + (i * 128 - w.off))

/-- A granule whose copy becomes stale: it is no longer filled, and its dirty bytes stay. -/
def unfill (yes : Nat → Bool) (p : Nat × Granule) : Nat × Granule := if yes p.1 then (p.1, { p.2 with fill := false }) else p

/-- Every copy of the object in a stash becomes stale. -/
def Stash.dropObject (t : Stash) (o : ObjEntry) : Stash :=
  { t with granules := t.granules.map (unfill fun i => t.windows.toList.any fun w => w.any fun w => w.granuleIn o i) }

/-- The dirty granules of the strand's windows in an object go down to the cluster cache. -/
def State.flushGranules (s : State) (o : ObjEntry) : State :=
  s.core.stash.windows.toList.foldl (fun s w => match w with
    | none => s
    | some w => (s.core.stash.granules.map Prod.fst).foldl (fun s i =>
        if w.granuleIn o i then s.writeBackGranule w i else s) s) s

/-- The cores of a cluster take a change of their stashes. -/
def State.mapClusterStashes (s : State) (k : Nat) (f : Stash → Stash) : State :=
  let g (c : Core) : Core := if clusterOf c.num = some k then { c with stash := f c.stash } else c
  { s with core := g s.core, card := { s.card with cores := s.card.cores.map g } }

/-- The copies that a cluster cache holds of an object become stale. -/
def CacheLine.unfillIn (o : ObjEntry) (l : CacheLine) : CacheLine := if o.holds (tagVa l.tag) then { l with fill := false } else l

def Cluster.dropObject (c : Cluster) (o : ObjEntry) : Cluster := { c with lines := c.lines.map (CacheLine.unfillIn o) }

/-- Every copy of an object in the cluster cache and in every stash of the cluster becomes stale (R302). -/
def State.staleObject (s : State) (k : Nat) (o : ObjEntry) : State :=
  (s.setCluster k ((s.clusterAt k).dropObject o)).mapClusterStashes k fun t => t.dropObject o

/-- The strand's own dirty bytes in an object, or every dirty byte of it in the cluster cache, go to L2 (R302). -/
def State.flushObject (s : State) (k : Nat) (o : ObjEntry) (everyone : Bool) : State :=
  let s := s.flushGranules o
  let c := s.clusterAt k
  (c.linesIn s.core.asid.toNat o).foldl (fun s tag =>
    match (s.clusterAt k).find tag with
    | some l => if everyone || l.wmask.getLsbD (coreInCluster s.core.num) then s.writeBackLine k s.core.colour.toNat tag else s
    | none => s) s

/-- OBJDECL (R301, R302). -/
def State.objdecl (s : State) (xa : BitVec 6) : Except Stop State := do
  let op := 0x0B#8
  let d ← s.descriptorChecks op xa
  let a := s.core.xr xa
  let info := indexInfo 0 op
  let k := (clusterOf s.core.num).getD 0
  let table := (s.clusterAt k).objects
  match objectOf d s.core.launchId with
  | none => trap ⟨4, 6, a, info⟩
  | some o =>
    check (table.all fun p => !overlap p.box o.box) ⟨4, 7, a, info⟩
    check (decide (table.length < 64)) ⟨4, 8, a, info⟩
    if !s.storeClear o.box || !s.drained then await .plain
    else
      let t := ((s.touchRange a.toNat 32).flushObject k o false).staleObject k o
      let c := t.clusterAt k
      s.whenMerged .plain (t.setCluster k { c with objects := c.objects ++ [o] })

def execObjdecl (xa : BitVec 6) (s : State) : Host.Outcome State Fault Refusal := s.finish (s.objdecl xa)

/-- An object is dropped (R302): its dirty bytes go to L2, its copies become stale, its entry leaves the table. -/
def State.dropObject (s : State) (k : Nat) (o : ObjEntry) : State :=
  let t := (s.flushObject k o true).staleObject k o
  let c := t.clusterAt k
  t.setCluster k { c with objects := c.objects.erase o }

/-- OBJDROP (R301, R302). -/
def State.objdrop (s : State) (xa : BitVec 6) : Except Stop State := do
  let op := 0x0C#8
  let d ← s.descriptorChecks op xa
  let a := s.core.xr xa
  let k := (clusterOf s.core.num).getD 0
  match (s.clusterAt k).objects.find? fun o => o.base == field d 0 52 && o.launch == s.core.launchId with
  | none => trap ⟨4, 6, a, indexInfo 0 op⟩
  | some o =>
    if !s.storeClear o.box || !s.drained then await .plain
    else s.whenMerged .plain ((s.touchRange a.toNat 32).dropObject k o)

def execObjdrop (xa : BitVec 6) (s : State) : Host.Outcome State Fault Refusal := s.finish (s.objdrop xa)

/-! ### Windows -/

/-- The sheaf aperture's range. -/
def Core.apertureBox (c : Core) : Nat × Nat :=
  match c.stash.aperture with
  | some a => (a.base, a.base + a.members.length * 2 ^ 18)
  | none => (0, 0)

/-- The virtual range of a window. -/
def Window.box (w : Window) : Nat × Nat := (w.va, w.va + 2 ^ w.lg)

/-- The mapped windows. -/
def Stash.mapped (t : Stash) : List Window := t.windows.toList.filterMap id

def Stash.setWindow (t : Stash) (n : Nat) (w : Option Window) : Stash :=
  if h : n < 8 then { t with windows := t.windows.set n w h } else t

def Stash.window (t : Stash) (n : Nat) : Option Window := t.windows.toList.getD n none

/-- The granules of a window hold no data: they are neither filled nor dirty. -/
def Stash.clearGranules (t : Stash) (w : Window) : Stash :=
  { t with granules := t.granules.filter fun p => !(decide (w.off ≤ p.1 * 128) && decide (p.1 * 128 < w.off + 2 ^ w.lg)) }

/-- STMAP of a window (R304); a range past the declared stash is class 4 detail 0x02 in user mode (R90). -/
def State.stmap (s : State) (n : Nat) (xa xb : BitVec 6) (lg : Nat) : Except Stop State := do
  let op := 0x0D#8
  let a := (s.core.xr xa)
  let b := (s.core.xr xb).toNat
  let info := indexInfo n op
  check (decide (12 ≤ lg) && decide (lg ≤ 18) && decide (b + 2 ^ lg ≤ 2 ^ 18) &&
    (s.core.supervisor || decide (b + 2 ^ lg ≤ s.core.limits.stash * 1024))) ⟨4, 2, a, info⟩
  check (a.toNat % 2 ^ lg == 0 && b % 2 ^ lg == 0) ⟨4, 0, a, info⟩
  check (decide (a.toNat < 2 ^ 52)) ⟨4, 1, a, info⟩
  let w : Window := ⟨if shared a.toNat then 0 else s.core.asid.toNat, a.toNat, b, lg⟩
  check (!overlap w.box s.core.apertureBox)
    (if s.core.supervisor then ⟨4, 7, a, info⟩ else s.core.illegal 6 op)
  check ((s.core.stash.window n).isNone && s.core.stash.mapped.all fun v =>
    !overlap v.box w.box && !overlap (v.off, v.off + 2 ^ v.lg) (w.off, w.off + 2 ^ w.lg)) ⟨4, 7, a, info⟩
  if !s.drained then await .plain
  else .ok (s.withStash ((s.core.stash.clearGranules w).setWindow n (some w)))

def execStmap (index : BitVec 8) (xa xb : BitVec 6) (imm : BitVec 32) (s : State) : Host.Outcome State Fault Refusal :=
  s.finish (s.stmap index.toNat xa xb (imm.extractLsb' 0 5).toNat)

/-- The cores of the strands of the sheaf of the strand in focus, in the order of their indices within it (R305). -/
def State.sheafCores (s : State) : List Nat :=
  match s.card.launches.find? fun l => l.id == s.core.launchId with
  | none => []
  | some l =>
    match l.strands.find? fun i => i.index == (s.core.strand.extractLsb' 0 16).toNat with
    | none => []
    | some me => (l.strands.filter fun i => i.sheaf == me.sheaf).map fun i => i.core.getD s.core.num

/-- STMAP 8 binds the sheaf aperture (R305). -/
def State.stmapAperture (s : State) (xa xb : BitVec 6) : Except Stop State := do
  let op := 0x0D#8
  let a := s.core.xr xa
  let n := (s.core.xr xb).toNat
  let info := indexInfo 8 op
  let members := s.sheafCores
  check s.core.supervisor (s.core.illegal 6 op)
  check (decide (1 ≤ n) && decide (n ≤ 256) && decide (n ≤ members.length)) ⟨4, 2, a, info⟩
  check (a.toNat % 2 ^ 18 == 0) ⟨4, 0, a, info⟩
  check (decide (a.toNat < 2 ^ 52) && decide (a.toNat + n * 2 ^ 18 ≤ 2 ^ 52)) ⟨4, 1, a, info⟩
  check (s.core.stash.mapped.all fun w => !overlap w.box (a.toNat, a.toNat + n * 2 ^ 18)) ⟨4, 7, a, info⟩
  if !s.drained then await .plain
  else .ok (s.withStash { s.core.stash with aperture := some ⟨a.toNat, members.take n⟩ })

def execStmapAperture (xa xb : BitVec 6) (s : State) : Host.Outcome State Fault Refusal := s.finish (s.stmapAperture xa xb)

/-- A window is written back (R306); `inv` also makes its copies stale. -/
def State.flushWindow (s : State) (inv : Bool) (w : Window) : State :=
  let t := s.writeBackWindow w
  let inside (i : Nat) : Bool := decide (w.off ≤ i * 128) && decide (i * 128 < w.off + 2 ^ w.lg)
  if inv then t.withStash { t.core.stash with granules := t.core.stash.granules.map (unfill inside) } else t

/-- The bounding box of windows (R306). -/
def windowsBox (ws : List Window) : Nat × Nat :=
  match ws with
  | [] => (0, 0)
  | w :: rest => (rest.foldl (fun lo v => min lo v.va) w.va, rest.foldl (fun hi v => max hi v.box.2) w.box.2)

/-- A store-type instruction on windows retires once the stores before it have performed and no RED, copy or collective that meets their
bounding box is under way. -/
def State.windowsClear (s : State) (ws : List Window) : Bool := s.drained && s.storeClear (windowsBox ws)

/-- STUNMAP (R306): of an unmapped window it does nothing; the stash bytes keep their contents. -/
def State.stunmap (s : State) (n : Nat) : Except Stop State :=
  match s.core.stash.window n with
  | none => .ok s
  | some w =>
    if !s.windowsClear [w] then await .plain
    else
      let t := s.flushWindow false w
      s.whenMerged .plain (t.withStash ((t.core.stash.clearGranules w).setWindow n none))

def execStunmap (index : BitVec 8) (s : State) : Host.Outcome State Fault Refusal := s.finish (s.stunmap index.toNat)

/-- The mapped windows that a mask names. -/
def Stash.masked (t : Stash) (mask : BitVec 8) : List Window :=
  (List.range 8).filterMap fun n => if mask.getLsbD n then t.window n else none

/-- STFLUSH (R306). -/
def State.stflush (s : State) (mask : BitVec 8) (inv : Bool) : Except Stop State :=
  let ws := s.core.stash.masked mask
  if !s.windowsClear ws then await .plain else s.whenMerged .plain (ws.foldl (fun s w => s.flushWindow inv w) s)

def execStflush (index : BitVec 8) (sel : BitVec 4) (s : State) : Host.Outcome State Fault Refusal :=
  s.finish (s.stflush index (sel == 1#4))

end Sys2Proof.Machine
end

