-- ==== Sys2Proof/Decode.lean ====
section
/-! DEFINITION. The decoder, total on any 96-bit word, and the encoder written from the same tables (R66-R81). -/

namespace Sys2Proof

/-- Why a word is no instruction (R72, R73). -/
inductive DecodeError where
  /-- opcode 0xFF: class 1 detail 0x02. -/
  | illegalOpcode
  /-- a cell of R69 marked as unassigned: class 1 detail 0x00. -/
  | unassignedOpcode
  /-- a reserved field that is not zero: class 1 detail 0x01. -/
  | reservedField
  /-- a reserved value: class 1 detail 0x03. -/
  | reservedValue
deriving DecidableEq, Repr

/-- The detail of the class-1 fault of a word that does not decode (R72). -/
def DecodeError.detail : DecodeError → Nat
  | .unassignedOpcode => 0
  | .reservedField => 1
  | .illegalOpcode => 2
  | .reservedValue => 3

/-- The field of n bits from bit lo upward. -/
def bits (lo n : Nat) (w : InstrWord) : BitVec n := w.extractLsb' lo n

/-- Bit n of a word. -/
def bit (n : Nat) (w : InstrWord) : Bool := bits n 1 w == 1#1

/-- A word that holds v from bit lo upward and zeros elsewhere. -/
def put (lo : Nat) {n : Nat} (v : BitVec n) : InstrWord := v.setWidth 96 <<< lo

/-- A word whose bit n is b and whose other bits are 0. -/
def putBit (n : Nat) (b : Bool) : InstrWord := put n (BitVec.ofBool b)

/-- The n bits from bit lo upward are zero. -/
def zero (lo n : Nat) (w : InstrWord) : Bool := bits lo n w == 0#n

/-- The last checks of decoding: the reserved fields, then the reserved values (R73, steps 4 and 5). -/
def gate (clear : Bool) (i : Instr) : Except DecodeError Instr :=
  if clear && fieldsClear i then (if valuesOk i then .ok i else .error .reservedValue)
  else .error .reservedField

/-- As gate, for the forms whose cond field accepts only 0x0 (R76). -/
def gateCond (cond : BitVec 4) (clear : Bool) (i : Instr) : Except DecodeError Instr :=
  if clear && fieldsClear i then (if valuesOk i && cond == 0#4 then .ok i else .error .reservedValue)
  else .error .reservedField

/-- As gate, with a reserved value that no operand of the form shows. -/
def gateWith (value clear : Bool) (i : Instr) : Except DecodeError Instr :=
  if clear && fieldsClear i then (if valuesOk i && value then .ok i else .error .reservedValue)
  else .error .reservedField

/-- MTS by its special register: the table gives s.ps, s.seed, s.tvec, s.asid and the shape registers rows of their own. -/
def mtsOf (sreg : BitVec 12) (xa : BitVec 6) : Instr :=
  if sreg = 0x010#12 then .mtsPs xa
  else if sreg = 0x011#12 then .mtsSeed xa
  else if sreg = 0x012#12 then .mtsTvec xa
  else if sreg = 0x020#12 then .mtsAsid xa
  else if sreg.extractLsb' 3 9 = 0x020#9 then .mtsShape (sreg.extractLsb' 0 3) xa
  else .mts xa sreg


/-- Row 0x0 of the opcode map (R69). -/
def decodeRow0 (w : InstrWord) : Except DecodeError Instr :=
  match (bits 88 4 w).toNat with
  | 0 => gate (zero 0 88 w) .nop
  | 1 => gate (zero 0 88 w) .halt
  | 2 => gate (zero 64 24 w) (.trap (bits 0 64 w))
  | 3 => gate (zero 64 24 w) (.syscall (bits 0 64 w))
  | 4 => gate (zero 0 88 w) .eret
  | 5 => gate (zero 0 48 w && zero 60 22 w) (.mfs (bits 82 6 w) (bits 48 12 w))
  | 6 => gate (zero 0 48 w && zero 60 16 w && zero 82 6 w) (mtsOf (bits 48 12 w) (bits 76 6 w))
  | 7 => gate (zero 0 88 w) .ifence
  | 8 => gate (zero 0 88 w) .ctxmark
  | 9 => gate (zero 0 76 w) (.sleep (bits 82 6 w) (bits 76 6 w))
  | 10 => gate (zero 0 76 w && zero 82 6 w) (.preack (bits 76 6 w))
  | 11 => gate (zero 0 76 w && zero 82 6 w) (.objdecl (bits 76 6 w))
  | 12 => gate (zero 0 76 w && zero 82 6 w) (.objdrop (bits 76 6 w))
  -- STMAP 8 (R305): lg is a reserved field; a nonzero imm32[31:5] is a reserved value (R303, log 54).
  | 13 => if bits 51 8 w = 8#8 then gateWith (zero 5 27 w) (zero 0 5 w && zero 32 19 w && zero 59 11 w && zero 82 6 w) (.stmapAperture (bits 76 6 w) (bits 70 6 w)) else gate (zero 32 19 w && zero 59 11 w && zero 82 6 w) (.stmap (bits 51 8 w) (bits 76 6 w) (bits 70 6 w) (bits 0 32 w))
  | 14 => gate (zero 0 51 w && zero 59 29 w) (.stunmap (bits 51 8 w))
  | _ => gate (zero 0 36 w && zero 40 11 w && zero 59 29 w) (.stflush (bits 51 8 w) (bits 36 4 w))

/-- Row 0x1 of the opcode map (R69). -/
def decodeRow1 (w : InstrWord) : Except DecodeError Instr :=
  match (bits 88 4 w).toNat with
  | 0 => gate (zero 0 70 w) (.add (bits 82 6 w) (bits 76 6 w) (bits 70 6 w))
  | 1 => gate (zero 0 70 w) (.sub (bits 82 6 w) (bits 76 6 w) (bits 70 6 w))
  | 2 => gate (zero 0 70 w) (.mul (bits 82 6 w) (bits 76 6 w) (bits 70 6 w))
  | 3 => gate (zero 0 48 w && zero 49 21 w) (.mulh (bits 82 6 w) (bits 76 6 w) (bits 70 6 w) (bit 48 w))
  | 4 => gate (zero 0 48 w && zero 49 21 w) (.div (bits 82 6 w) (bits 76 6 w) (bits 70 6 w) (bit 48 w))
  | 5 => gate (zero 0 48 w && zero 49 21 w) (.rem (bits 82 6 w) (bits 76 6 w) (bits 70 6 w) (bit 48 w))
  | 6 => gate (zero 0 70 w) (.and (bits 82 6 w) (bits 76 6 w) (bits 70 6 w))
  | 7 => gate (zero 0 70 w) (.or (bits 82 6 w) (bits 76 6 w) (bits 70 6 w))
  | 8 => gate (zero 0 70 w) (.xor (bits 82 6 w) (bits 76 6 w) (bits 70 6 w))
  | 9 => gate (zero 0 70 w) (.andn (bits 82 6 w) (bits 76 6 w) (bits 70 6 w))
  | 10 => gate (zero 0 70 w) (.shl (bits 82 6 w) (bits 76 6 w) (bits 70 6 w))
  | 11 => gate (zero 0 70 w) (.shr (bits 82 6 w) (bits 76 6 w) (bits 70 6 w))
  | 12 => gate (zero 0 70 w) (.sar (bits 82 6 w) (bits 76 6 w) (bits 70 6 w))
  | 13 => gate (zero 0 48 w && zero 49 21 w) (.min (bits 82 6 w) (bits 76 6 w) (bits 70 6 w) (bit 48 w))
  | 14 => gate (zero 0 48 w && zero 49 21 w) (.max (bits 82 6 w) (bits 76 6 w) (bits 70 6 w) (bit 48 w))
  | _ => gate (zero 0 49 w && zero 53 17 w) (.cmp (bits 82 6 w) (bits 76 6 w) (bits 70 6 w) (bits 49 4 w))

/-- Row 0x2 of the opcode map (R69). -/
def decodeRow2 (w : InstrWord) : Except DecodeError Instr :=
  match (bits 88 4 w).toNat with
  | 0 => gate (zero 64 12 w) (.addi (bits 82 6 w) (bits 76 6 w) (bits 0 64 w))
  | 1 => gate (zero 64 12 w) (.muli (bits 82 6 w) (bits 76 6 w) (bits 0 64 w))
  | 2 => gate (zero 64 12 w) (.andi (bits 82 6 w) (bits 76 6 w) (bits 0 64 w))
  | 3 => gate (zero 64 12 w) (.ori (bits 82 6 w) (bits 76 6 w) (bits 0 64 w))
  | 4 => gate (zero 64 12 w) (.xori (bits 82 6 w) (bits 76 6 w) (bits 0 64 w))
  | 5 => gate (zero 64 12 w) (.shli (bits 82 6 w) (bits 76 6 w) (bits 0 64 w))
  | 6 => gate (zero 64 12 w) (.shri (bits 82 6 w) (bits 76 6 w) (bits 0 64 w))
  | 7 => gate (zero 64 12 w) (.sari (bits 82 6 w) (bits 76 6 w) (bits 0 64 w))
  | 8 => gate (zero 68 8 w) (.cmpi (bits 82 6 w) (bits 76 6 w) (bits 0 64 w) (bits 64 4 w))
  | 9 => gate (zero 64 18 w) (.movi (bits 82 6 w) (bits 0 64 w))
  | 10 => gate (zero 0 76 w) (.clz (bits 82 6 w) (bits 76 6 w))
  | 11 => gate (zero 0 76 w) (.ctz (bits 82 6 w) (bits 76 6 w))
  | 12 => gate (zero 0 76 w) (.popc (bits 82 6 w) (bits 76 6 w))
  | 13 => gate (zero 64 12 w) (.sext (bits 82 6 w) (bits 76 6 w) (bits 0 64 w))
  | 14 => gate (zero 64 12 w) (.zext (bits 82 6 w) (bits 76 6 w) (bits 0 64 w))
  | _ => gate (zero 0 64 w) (.sel (bits 82 6 w) (bits 76 6 w) (bits 70 6 w) (bits 64 6 w))

/-- Row 0x3 of the opcode map (R69). -/
def decodeRow3 (w : InstrWord) : Except DecodeError Instr :=
  match (bits 88 4 w).toNat with
  | 0 => gate (zero 0 48 w && zero 52 18 w) (.fadd (bits 82 6 w) (bits 76 6 w) (bits 70 6 w) (bit 48 w) (bits 49 3 w))
  | 1 => gate (zero 0 48 w && zero 52 18 w) (.fsub (bits 82 6 w) (bits 76 6 w) (bits 70 6 w) (bit 48 w) (bits 49 3 w))
  | 2 => gate (zero 0 48 w && zero 52 18 w) (.fmul (bits 82 6 w) (bits 76 6 w) (bits 70 6 w) (bit 48 w) (bits 49 3 w))
  | 3 => gate (zero 0 48 w && zero 52 12 w) (.ffma (bits 82 6 w) (bits 76 6 w) (bits 70 6 w) (bits 64 6 w) (bit 48 w) (bits 49 3 w))
  | 4 => gate (zero 0 48 w && zero 52 18 w) (.fdiv (bits 82 6 w) (bits 76 6 w) (bits 70 6 w) (bit 48 w) (bits 49 3 w))
  | 5 => gate (zero 0 48 w && zero 52 24 w) (.fsqrt (bits 82 6 w) (bits 76 6 w) (bit 48 w) (bits 49 3 w))
  | 6 => gate (zero 0 48 w && zero 49 21 w) (.fmin (bits 82 6 w) (bits 76 6 w) (bits 70 6 w) (bit 48 w))
  | 7 => gate (zero 0 48 w && zero 49 21 w) (.fmax (bits 82 6 w) (bits 76 6 w) (bits 70 6 w) (bit 48 w))
  | 8 => gate (zero 0 48 w && zero 49 3 w && zero 56 14 w) (.fcmp (bits 82 6 w) (bits 76 6 w) (bits 70 6 w) (bit 48 w) (bits 52 4 w))
  | 9 => gate (zero 0 49 w && zero 52 4 w && zero 62 14 w) (.fcvt (bits 82 6 w) (bits 76 6 w) (bits 56 3 w) (bits 59 3 w) (bits 49 3 w))
  | _ => .error .unassignedOpcode

/-- Row 0x4 of the opcode map (R69). -/
def decodeRow4 (w : InstrWord) : Except DecodeError Instr :=
  match (bits 88 4 w).toNat with
  | 0 => gate (zero 64 5 w) (.br (bits 82 6 w) (bits 76 6 w) (bits 72 4 w) (bits 69 3 w) (bits 0 64 w))
  | 1 => gate (zero 64 5 w) (.bri (bits 82 6 w) (bits 76 6 w) (bits 72 4 w) (bits 69 3 w) (bits 0 64 w))
  | 2 => gateCond (bits 72 4 w) (zero 64 5 w && zero 76 12 w) (.jmp (bits 69 3 w) (bits 0 64 w))
  | 3 => gateCond (bits 72 4 w) (zero 0 72 w && zero 76 6 w) (.jmpr (bits 82 6 w))
  | 4 => gateCond (bits 72 4 w) (zero 64 5 w && zero 76 12 w) (.call (bits 69 3 w) (bits 0 64 w))
  | 5 => gateCond (bits 72 4 w) (zero 0 72 w && zero 76 6 w) (.callr (bits 82 6 w))
  | 6 => gateCond (bits 72 4 w) (zero 64 5 w && zero 76 6 w) (.loop (bits 82 6 w) (bits 69 3 w) (bits 0 64 w))
  | 7 => gate (zero 0 67 w && zero 69 3 w) (.cmpsk (bits 82 6 w) (bits 76 6 w) (bits 72 4 w) (bits 67 2 w))
  | 8 => gate (zero 64 3 w && zero 69 3 w && zero 76 6 w) (.cmpski (bits 82 6 w) (bits 72 4 w) (bits 67 2 w) (bits 0 64 w))
  | _ => .error .unassignedOpcode

/-- Row 0x5 of the opcode map (R69). -/
def decodeRow5 (w : InstrWord) : Except DecodeError Instr :=
  match (bits 88 4 w).toNat with
  | 0 => gate (zero 67 9 w) (.ld (bits 82 6 w) (bits 76 6 w) (bits 0 64 w) (bits 64 2 w) (bit 66 w))
  | 1 => gate (zero 66 10 w) (.st (bits 82 6 w) (bits 76 6 w) (bits 0 64 w) (bits 64 2 w))
  | 2 => gate (zero 69 7 w) (.lda (bits 82 6 w) (bits 76 6 w) (bits 0 64 w) (bits 64 2 w) (bit 66 w) (bits 67 2 w))
  | 3 => gate (zero 66 1 w && zero 69 7 w) (.stl (bits 82 6 w) (bits 76 6 w) (bits 0 64 w) (bits 64 2 w) (bits 67 2 w))
  | 4 => gate (zero 0 48 w && zero 54 16 w) (.aadd (bits 82 6 w) (bits 76 6 w) (bits 70 6 w) (bits 48 2 w) (bits 50 2 w) (bit 52 w) (bit 53 w))
  | 5 => gate (zero 0 48 w && zero 55 15 w) (.amin (bits 82 6 w) (bits 76 6 w) (bits 70 6 w) (bits 48 2 w) (bits 50 2 w) (bit 52 w) (bit 53 w) (bit 54 w))
  | 6 => gate (zero 0 48 w && zero 55 15 w) (.amax (bits 82 6 w) (bits 76 6 w) (bits 70 6 w) (bits 48 2 w) (bits 50 2 w) (bit 52 w) (bit 53 w) (bit 54 w))
  | 7 => gate (zero 0 48 w && zero 54 16 w) (.aand (bits 82 6 w) (bits 76 6 w) (bits 70 6 w) (bits 48 2 w) (bits 50 2 w) (bit 52 w) (bit 53 w))
  | 8 => gate (zero 0 48 w && zero 54 16 w) (.aor (bits 82 6 w) (bits 76 6 w) (bits 70 6 w) (bits 48 2 w) (bits 50 2 w) (bit 52 w) (bit 53 w))
  | 9 => gate (zero 0 48 w && zero 54 16 w) (.axor (bits 82 6 w) (bits 76 6 w) (bits 70 6 w) (bits 48 2 w) (bits 50 2 w) (bit 52 w) (bit 53 w))
  | 10 => gate (zero 0 48 w && zero 54 16 w) (.aswp (bits 82 6 w) (bits 76 6 w) (bits 70 6 w) (bits 48 2 w) (bits 50 2 w) (bit 52 w) (bit 53 w))
  | 11 => gate (zero 0 48 w && zero 54 10 w) (.acas (bits 82 6 w) (bits 76 6 w) (bits 70 6 w) (bits 64 6 w) (bits 48 2 w) (bits 50 2 w) (bit 52 w) (bit 53 w))
  | 12 => gate (zero 0 50 w && zero 52 4 w && zero 60 10 w && zero 82 6 w) (.red (bits 76 6 w) (bits 70 6 w) (bits 50 2 w) (bits 56 2 w) (bits 58 2 w))
  | _ => .error .unassignedOpcode

/-- Row 0x6 of the opcode map (R69). -/
def decodeRow6 (w : InstrWord) : Except DecodeError Instr :=
  match (bits 88 4 w).toNat with
  | 0 => gate (zero 32 21 w) (.tld (bits 83 5 w) (bits 80 3 w) (bits 75 5 w) (bits 69 6 w) (bits 63 6 w) (bits 57 6 w) (bits 53 4 w) (bits 0 32 w))
  | 1 => gate (zero 32 25 w) (.tst (bits 83 5 w) (bits 80 3 w) (bits 75 5 w) (bits 69 6 w) (bits 63 6 w) (bits 57 6 w) (bits 0 32 w))
  | 2 => gate (zero 32 21 w) (.tldx (bits 83 5 w) (bits 80 3 w) (bits 75 5 w) (bits 69 6 w) (bits 63 6 w) (bits 57 6 w) (bits 53 4 w) (bits 0 32 w))
  | 3 => gate (zero 32 25 w) (.tstx (bits 83 5 w) (bits 80 3 w) (bits 75 5 w) (bits 69 6 w) (bits 63 6 w) (bits 57 6 w) (bits 0 32 w))
  | 4 => gate (zero 0 51 w && zero 63 20 w) (.tzero (bits 83 5 w) (bits 60 3 w) (bits 55 5 w) (bits 51 4 w))
  | 5 => gate (zero 0 45 w && zero 63 20 w) (.tfill (bits 83 5 w) (bits 60 3 w) (bits 55 5 w) (bits 51 4 w) (bits 45 6 w))
  | 6 => gate (zero 0 78 w) (.tmov (bits 83 5 w) (bits 78 5 w))
  | 7 => gate (zero 32 13 w && zero 51 27 w && zero 83 5 w) (.tmovx (bits 78 5 w) (bits 45 6 w) (bits 0 32 w))
  | 8 => gate (zero 32 13 w && zero 51 27 w) (.tmovs (bits 83 5 w) (bits 78 5 w) (bits 45 6 w) (bits 0 32 w))
  | 9 => gate (zero 0 45 w && zero 51 27 w && zero 83 5 w) (.tshr (bits 78 5 w) (bits 45 6 w))
  | 10 => gate (zero 0 51 w && zero 63 15 w) (.treshape (bits 83 5 w) (bits 78 5 w) (bits 60 3 w) (bits 55 5 w) (bits 51 4 w))
  | _ => .error .unassignedOpcode

/-- Row 0x7 of the opcode map (R69). -/
def decodeRow7 (w : InstrWord) : Except DecodeError Instr :=
  match (bits 88 4 w).toNat with
  | 0 => gate (zero 0 63 w && zero 65 8 w && zero 83 5 w) (.mpin (bits 63 2 w) (bits 78 5 w) (bits 73 5 w))
  | 1 => gate (zero 0 40 w && zero 41 22 w && zero 68 5 w && zero 83 5 w) (.mma (bits 65 3 w) (bits 63 2 w) (bits 78 5 w) (bits 73 5 w) (bit 40 w))
  | 2 => gate (zero 0 39 w && zero 41 22 w && zero 68 10 w && zero 83 5 w) (.mmat (bits 65 3 w) (bits 63 2 w) (bits 78 5 w) (bit 40 w) (bit 39 w))
  | 3 => gate (zero 0 39 w && zero 41 24 w && zero 68 5 w && zero 83 5 w) (.mopa (bits 65 3 w) (bits 78 5 w) (bits 73 5 w) (bit 40 w) (bit 39 w))
  | 4 => gate (zero 32 9 w && zero 45 6 w && zero 63 2 w && zero 68 15 w) (.mdrain (bits 83 5 w) (bits 65 3 w) (bits 60 3 w) (bits 55 5 w) (bits 51 4 w) (bits 0 32 w) (bits 43 2 w) (bit 42 w) (bit 41 w))
  | 5 => gate (zero 32 8 w && zero 41 24 w && zero 68 10 w && zero 83 5 w) (.maccld (bits 65 3 w) (bits 78 5 w) (bits 0 32 w) (bit 40 w))
  | 6 => gate (zero 0 32 w && zero 36 27 w && zero 65 18 w) (.wdrain (bits 83 5 w) (bits 63 2 w) (bits 32 4 w))
  | 7 => gate (zero 0 65 w && zero 68 20 w) (.mzero (bits 65 3 w))
  | _ => .error .unassignedOpcode

/-- Row 0x8 of the opcode map (R69). -/
def decodeRow8 (w : InstrWord) : Except DecodeError Instr :=
  match (bits 88 4 w).toNat with
  | 0 => gate (zero 0 36 w && zero 39 3 w && zero 51 22 w) (.vadd (bits 83 5 w) (bits 78 5 w) (bits 73 5 w) (bits 45 6 w) (bits 36 3 w) (bits 43 2 w) (bit 42 w))
  | 1 => gate (zero 0 36 w && zero 39 3 w && zero 51 22 w) (.vsub (bits 83 5 w) (bits 78 5 w) (bits 73 5 w) (bits 45 6 w) (bits 36 3 w) (bits 43 2 w) (bit 42 w))
  | 2 => gate (zero 0 36 w && zero 39 3 w && zero 51 22 w) (.vmul (bits 83 5 w) (bits 78 5 w) (bits 73 5 w) (bits 45 6 w) (bits 36 3 w) (bits 43 2 w) (bit 42 w))
  | 3 => gate (zero 0 36 w && zero 39 3 w && zero 51 17 w) (.vfma (bits 83 5 w) (bits 78 5 w) (bits 73 5 w) (bits 45 6 w) (bits 36 3 w) (bits 68 5 w) (bits 43 2 w) (bit 42 w))
  | 4 => gate (zero 0 36 w && zero 39 6 w && zero 51 22 w) (.vmin (bits 83 5 w) (bits 78 5 w) (bits 73 5 w) (bits 45 6 w) (bits 36 3 w))
  | 5 => gate (zero 0 36 w && zero 39 6 w && zero 51 22 w) (.vmax (bits 83 5 w) (bits 78 5 w) (bits 73 5 w) (bits 45 6 w) (bits 36 3 w))
  | 6 => gate (zero 0 36 w && zero 39 6 w && zero 51 22 w) (.vand (bits 83 5 w) (bits 78 5 w) (bits 73 5 w) (bits 45 6 w) (bits 36 3 w))
  | 7 => gate (zero 0 36 w && zero 39 6 w && zero 51 22 w) (.vor (bits 83 5 w) (bits 78 5 w) (bits 73 5 w) (bits 45 6 w) (bits 36 3 w))
  | 8 => gate (zero 0 36 w && zero 39 6 w && zero 51 22 w) (.vxor (bits 83 5 w) (bits 78 5 w) (bits 73 5 w) (bits 45 6 w) (bits 36 3 w))
  | 9 => gate (zero 0 36 w && zero 39 6 w && zero 51 22 w) (.vshl (bits 83 5 w) (bits 78 5 w) (bits 73 5 w) (bits 45 6 w) (bits 36 3 w))
  | 10 => gate (zero 0 32 w && zero 39 6 w && zero 51 22 w) (.vshr (bits 83 5 w) (bits 78 5 w) (bits 73 5 w) (bits 45 6 w) (bits 36 3 w) (bits 32 4 w))
  | 11 => gate (zero 0 32 w && zero 39 6 w && zero 51 4 w && zero 63 10 w) (.vcmp (bits 83 5 w) (bits 78 5 w) (bits 73 5 w) (bits 45 6 w) (bits 36 3 w) (bits 60 3 w) (bits 55 5 w) (bits 32 4 w))
  | 12 => gate (zero 0 36 w && zero 39 6 w && zero 51 17 w) (.vsel (bits 83 5 w) (bits 78 5 w) (bits 73 5 w) (bits 45 6 w) (bits 36 3 w) (bits 68 5 w))
  | 13 => gate (zero 0 78 w) (.vabs (bits 83 5 w) (bits 78 5 w))
  | 14 => gate (zero 0 78 w) (.vneg (bits 83 5 w) (bits 78 5 w))
  | _ => gate (zero 0 36 w && zero 39 3 w && zero 51 22 w) (.vdiv (bits 83 5 w) (bits 78 5 w) (bits 73 5 w) (bits 45 6 w) (bits 36 3 w) (bits 43 2 w) (bit 42 w))

/-- Row 0x9 of the opcode map (R69). -/
def decodeRow9 (w : InstrWord) : Except DecodeError Instr :=
  match (bits 88 4 w).toNat with
  | 0 => gate (zero 0 41 w && zero 45 6 w && zero 63 5 w) (.vcvt (bits 83 5 w) (bits 78 5 w) (bits 73 5 w) (bits 68 5 w) (bits 60 3 w) (bits 55 5 w) (bits 51 4 w) (bits 43 2 w) (bit 42 w) (bit 41 w))
  | 1 => gate (zero 0 78 w) (.vexp2 (bits 83 5 w) (bits 78 5 w))
  | 2 => gate (zero 0 78 w) (.vlog2 (bits 83 5 w) (bits 78 5 w))
  | 3 => gate (zero 0 42 w && zero 45 33 w) (.vrcp (bits 83 5 w) (bits 78 5 w) (bits 43 2 w) (bit 42 w))
  | 4 => gate (zero 0 78 w) (.vrsq (bits 83 5 w) (bits 78 5 w))
  | 5 => gate (zero 0 42 w && zero 45 33 w) (.vsqrt (bits 83 5 w) (bits 78 5 w) (bits 43 2 w) (bit 42 w))
  | 6 => gate (zero 0 78 w) (.vtanh (bits 83 5 w) (bits 78 5 w))
  | 7 => gate (zero 0 78 w) (.vsigm (bits 83 5 w) (bits 78 5 w))
  | 8 => gate (zero 0 78 w) (.vgelu (bits 83 5 w) (bits 78 5 w))
  | 9 => gate (zero 0 51 w && zero 55 18 w && zero 83 5 w) (.vamax (bits 78 5 w) (bits 73 5 w) (bits 51 4 w))
  | 10 => gate (zero 0 51 w && zero 63 20 w) (.vrand (bits 83 5 w) (bits 60 3 w) (bits 55 5 w) (bits 51 4 w))
  | 11 => gate (zero 32 13 w && zero 63 20 w) (.viota (bits 83 5 w) (bits 60 3 w) (bits 55 5 w) (bits 51 4 w) (bits 45 6 w) (bits 0 32 w))
  | 12 => gate (zero 32 4 w && zero 39 6 w && zero 51 17 w) (.vclamp (bits 83 5 w) (bits 78 5 w) (bits 73 5 w) (bits 68 5 w) (bits 45 6 w) (bits 0 32 w) (bits 36 3 w))
  | _ => .error .unassignedOpcode

/-- Row 0xA of the opcode map (R69). -/
def decodeRowA (w : InstrWord) : Except DecodeError Instr :=
  match (bits 88 4 w).toNat with
  | 0 => gate (zero 0 42 w && zero 45 10 w && zero 63 15 w) (.vrsum (bits 83 5 w) (bits 78 5 w) (bits 60 3 w) (bits 55 5 w) (bits 43 2 w) (bit 42 w))
  | 1 => gate (zero 0 55 w && zero 63 15 w) (.vrmax (bits 83 5 w) (bits 78 5 w) (bits 60 3 w) (bits 55 5 w))
  | 2 => gate (zero 0 55 w && zero 63 15 w) (.vrmin (bits 83 5 w) (bits 78 5 w) (bits 60 3 w) (bits 55 5 w))
  | 3 => gate (zero 0 42 w && zero 45 10 w && zero 63 15 w) (.vcsum (bits 83 5 w) (bits 78 5 w) (bits 60 3 w) (bits 55 5 w) (bits 43 2 w) (bit 42 w))
  | 4 => gate (zero 0 55 w && zero 63 15 w) (.vcmax (bits 83 5 w) (bits 78 5 w) (bits 60 3 w) (bits 55 5 w))
  | 5 => gate (zero 0 55 w && zero 63 15 w) (.vcmin (bits 83 5 w) (bits 78 5 w) (bits 60 3 w) (bits 55 5 w))
  | 6 => gate (zero 0 78 w) (.vtrans (bits 83 5 w) (bits 78 5 w))
  | 7 => gate (zero 36 24 w && zero 63 15 w) (.vbcast (bits 83 5 w) (bits 78 5 w) (bits 60 3 w) (bits 0 32 w) (bits 32 4 w))
  | 8 => gate (zero 0 36 w && zero 39 34 w) (.vshuf (bits 83 5 w) (bits 78 5 w) (bits 73 5 w) (bits 36 3 w))
  | 9 => gate (zero 0 32 w && zero 36 6 w && zero 45 33 w) (.vscan (bits 83 5 w) (bits 78 5 w) (bits 32 4 w) (bits 43 2 w) (bit 42 w))
  | 10 => gate (zero 0 36 w && zero 39 3 w && zero 45 10 w && zero 63 10 w) (.vrdot (bits 83 5 w) (bits 78 5 w) (bits 73 5 w) (bits 60 3 w) (bits 55 5 w) (bits 43 2 w) (bit 42 w) (bits 36 3 w))
  | _ => .error .unassignedOpcode

/-- Row 0xB of the opcode map (R69). -/
def decodeRowB (w : InstrWord) : Except DecodeError Instr :=
  match (bits 88 4 w).toNat with
  | 0 => gate (zero 3 5 w && zero 13 3 w && zero 26 38 w && zero 82 6 w) (.skinit (bits 76 6 w) (bits 70 6 w) (bits 64 6 w) (bits 0 3 w) (bits 8 5 w) (bits 16 8 w) (bits 24 2 w))
  | 1 => gate (zero 0 76 w && zero 82 6 w) (.skzero (bits 76 6 w))
  | 2 => gate (zero 0 36 w && zero 40 11 w && zero 56 3 w && zero 64 6 w && zero 82 6 w) (.skupd (bits 76 6 w) (bits 59 5 w) (bits 70 6 w) (bits 51 5 w) (bits 36 4 w))
  | 3 => gate (zero 3 33 w && zero 40 11 w && zero 56 3 w && zero 64 6 w && zero 82 6 w) (.skqry (bits 59 5 w) (bits 76 6 w) (bits 70 6 w) (bits 51 5 w) (bits 36 4 w) (bits 0 3 w))
  | 4 => gate (zero 0 70 w && zero 82 6 w) (.skadd (bits 76 6 w) (bits 70 6 w))
  | 5 => gate (zero 0 70 w && zero 82 6 w) (.skmul (bits 76 6 w) (bits 70 6 w))
  | 6 => gate (zero 0 88 w) .skfence
  | 7 => gate (zero 0 36 w && zero 40 36 w) (.skstat (bits 82 6 w) (bits 76 6 w) (bits 36 4 w))
  | _ => .error .unassignedOpcode

/-- Row 0xC of the opcode map (R69). -/
def decodeRowC (w : InstrWord) : Except DecodeError Instr :=
  match (bits 88 4 w).toNat with
  | 0 => gate (zero 34 1 w && zero 36 15 w && zero 64 12 w && zero 82 6 w) (.gqpush (bits 76 6 w) (bits 59 5 w) (bits 51 8 w) (bits 0 32 w) (bit 35 w) (bits 32 2 w))
  | 1 => gate (zero 35 16 w && zero 64 18 w) (.gqpop (bits 82 6 w) (bits 59 5 w) (bits 51 8 w) (bits 0 32 w) (bit 34 w) (bits 32 2 w))
  | 2 => gate (zero 0 32 w && zero 35 16 w && zero 64 18 w) (.gqpops (bits 82 6 w) (bits 59 5 w) (bits 51 8 w) (bit 34 w) (bits 32 2 w))
  | 3 => gate (zero 32 4 w && zero 40 11 w && zero 59 23 w) (.gqstat (bits 82 6 w) (bits 51 8 w) (bits 0 32 w) (bits 36 4 w))
  | 4 => gate (zero 0 32 w && zero 34 1 w && zero 36 23 w && zero 64 6 w && zero 82 6 w) (.msgsend (bits 76 6 w) (bits 70 6 w) (bits 59 5 w) (bit 35 w) (bits 32 2 w))
  | 5 => gate (zero 0 82 w) (.msgwait (bits 82 6 w))
  | 6 => gate (zero 0 32 w && zero 35 24 w && zero 64 18 w) (.msgrecv (bits 82 6 w) (bits 59 5 w) (bit 34 w) (bits 32 2 w))
  | 7 => gate (zero 0 51 w && zero 59 23 w) (.cpygo (bits 82 6 w) (bits 51 8 w))
  | 8 => gate (zero 0 70 w) (.cpywait (bits 82 6 w) (bits 76 6 w) (bits 70 6 w))
  | 9 => gate (zero 0 51 w && zero 59 23 w) (.cpystat (bits 82 6 w) (bits 51 8 w))
  | 10 => gate (zero 0 51 w && zero 59 23 w) (.cpycancel (bits 82 6 w) (bits 51 8 w))
  | _ => .error .unassignedOpcode

/-- Row 0xD of the opcode map (R69). -/
def decodeRowD (w : InstrWord) : Except DecodeError Instr :=
  match (bits 88 4 w).toNat with
  | 0 => gate (zero 0 51 w && zero 59 11 w) (.lkred (bits 82 6 w) (bits 76 6 w) (bits 70 6 w) (bits 51 8 w))
  | 1 => gate (zero 0 51 w && zero 59 17 w) (.lkskadd (bits 82 6 w) (bits 76 6 w) (bits 51 8 w))
  | 2 => gate (zero 0 70 w) (.lkwait (bits 82 6 w) (bits 76 6 w) (bits 70 6 w))
  | 3 => gate (zero 0 76 w) (.lkstat (bits 82 6 w) (bits 76 6 w))
  | _ => .error .unassignedOpcode

/-- Row 0xE of the opcode map (R69). -/
def decodeRowE (w : InstrWord) : Except DecodeError Instr :=
  match (bits 88 4 w).toNat with
  | 0 => gate (zero 0 35 w && zero 36 15 w && zero 59 23 w) (.syarr (bits 82 6 w) (bits 51 8 w) (bit 35 w))
  | 1 => gate (zero 0 34 w && zero 35 16 w && zero 59 17 w) (.sywait (bits 82 6 w) (bits 76 6 w) (bits 51 8 w) (bit 34 w))
  | 2 => gate (zero 0 34 w && zero 36 15 w && zero 59 23 w) (.sybar (bits 82 6 w) (bits 51 8 w) (bit 35 w) (bit 34 w))
  | 3 => gate (zero 0 34 w && zero 40 11 w && zero 59 5 w && zero 70 6 w) (.sybc (bits 82 6 w) (bits 76 6 w) (bits 64 6 w) (bits 51 8 w) (bits 36 4 w) (bit 35 w) (bit 34 w))
  | 4 => gate (zero 0 34 w && zero 41 10 w && zero 59 5 w && zero 70 6 w) (.syred (bits 82 6 w) (bits 76 6 w) (bits 64 6 w) (bits 51 8 w) (bits 36 4 w) (bit 40 w) (bit 35 w) (bit 34 w))
  | 5 => gate (zero 0 51 w && zero 59 23 w) (.sygen (bits 82 6 w) (bits 51 8 w))
  | 6 => gate (zero 0 70 w && zero 82 6 w) (.rzinit (bits 76 6 w) (bits 70 6 w))
  | 7 => gate (zero 0 32 w && zero 34 1 w && zero 36 40 w && zero 82 6 w) (.rzarr (bits 76 6 w) (bit 35 w) (bits 32 2 w))
  | 8 => gate (zero 0 32 w && zero 35 35 w) (.rzwait (bits 82 6 w) (bits 76 6 w) (bits 70 6 w) (bit 34 w) (bits 32 2 w))
  | 9 => gate (zero 0 32 w && zero 34 54 w) (.acq (bits 32 2 w))
  | 10 => gate (zero 0 32 w && zero 34 54 w) (.rel (bits 32 2 w))
  | 11 => gate (zero 0 88 w) .fence
  | 12 => gate (zero 32 56 w) (.qfence (bits 0 32 w))
  | _ => .error .unassignedOpcode

/-- Row 0xF of the opcode map (R69). -/
def decodeRowF (w : InstrWord) : Except DecodeError Instr :=
  if bits 88 8 w = 0xFF#8 then .error .illegalOpcode else .ok (.hint (bits 88 8 w) (bits 0 88 w))

/-- The decoder (R69-R73): the opcode's row, then its reserved fields, then its reserved values. -/
def decode (w : InstrWord) : Except DecodeError Instr :=
  match (bits 92 4 w).toNat with
  | 0 => decodeRow0 w
  | 1 => decodeRow1 w
  | 2 => decodeRow2 w
  | 3 => decodeRow3 w
  | 4 => decodeRow4 w
  | 5 => decodeRow5 w
  | 6 => decodeRow6 w
  | 7 => decodeRow7 w
  | 8 => decodeRow8 w
  | 9 => decodeRow9 w
  | 10 => decodeRowA w
  | 11 => decodeRowB w
  | 12 => decodeRowC w
  | 13 => decodeRowD w
  | 14 => decodeRowE w
  | _ => decodeRowF w

/-- The word of an instruction, written field by field from R66 and R77-R81; an event has none. -/
def encode (i : Instr) : Option InstrWord :=
  match i with
  | .nop => some (put 88 0x00#8)
  | .halt => some (put 88 0x01#8)
  | .trap imm => some (put 88 0x02#8 ||| put 0 imm)
  | .syscall imm => some (put 88 0x03#8 ||| put 0 imm)
  | .eret => some (put 88 0x04#8)
  | .mfs xd sreg => some (put 88 0x05#8 ||| put 82 xd ||| put 48 sreg)
  | .mts xa sreg => some (put 88 0x06#8 ||| put 76 xa ||| put 48 sreg)
  | .mtsSeed xa => some (put 88 0x06#8 ||| put 76 xa ||| put 48 0x011#12)
  | .mtsAsid xa => some (put 88 0x06#8 ||| put 76 xa ||| put 48 0x020#12)
  | .mtsTvec xa => some (put 88 0x06#8 ||| put 76 xa ||| put 48 0x012#12)
  | .mtsPs xa => some (put 88 0x06#8 ||| put 76 xa ||| put 48 0x010#12)
  | .mtsShape h xa => some (put 88 0x06#8 ||| put 76 xa ||| put 51 0x020#9 ||| put 48 h)
  | .ifence => some (put 88 0x07#8)
  | .ctxmark => some (put 88 0x08#8)
  | .sleep xd xa => some (put 88 0x09#8 ||| put 82 xd ||| put 76 xa)
  | .preack xa => some (put 88 0x0A#8 ||| put 76 xa)
  | .objdecl xa => some (put 88 0x0B#8 ||| put 76 xa)
  | .objdrop xa => some (put 88 0x0C#8 ||| put 76 xa)
  | .stmap index xa xb imm => some (put 88 0x0D#8 ||| put 51 index ||| put 76 xa ||| put 70 xb ||| put 0 imm)
  | .stmapAperture xa xb => some (put 88 0x0D#8 ||| put 76 xa ||| put 70 xb ||| put 51 8#8)
  | .stunmap index => some (put 88 0x0E#8 ||| put 51 index)
  | .stflush index sel => some (put 88 0x0F#8 ||| put 51 index ||| put 36 sel)
  | .add xd xa xb => some (put 88 0x10#8 ||| put 82 xd ||| put 76 xa ||| put 70 xb)
  | .sub xd xa xb => some (put 88 0x11#8 ||| put 82 xd ||| put 76 xa ||| put 70 xb)
  | .mul xd xa xb => some (put 88 0x12#8 ||| put 82 xd ||| put 76 xa ||| put 70 xb)
  | .mulh xd xa xb u => some (put 88 0x13#8 ||| put 82 xd ||| put 76 xa ||| put 70 xb ||| putBit 48 u)
  | .div xd xa xb u => some (put 88 0x14#8 ||| put 82 xd ||| put 76 xa ||| put 70 xb ||| putBit 48 u)
  | .rem xd xa xb u => some (put 88 0x15#8 ||| put 82 xd ||| put 76 xa ||| put 70 xb ||| putBit 48 u)
  | .and xd xa xb => some (put 88 0x16#8 ||| put 82 xd ||| put 76 xa ||| put 70 xb)
  | .or xd xa xb => some (put 88 0x17#8 ||| put 82 xd ||| put 76 xa ||| put 70 xb)
  | .xor xd xa xb => some (put 88 0x18#8 ||| put 82 xd ||| put 76 xa ||| put 70 xb)
  | .andn xd xa xb => some (put 88 0x19#8 ||| put 82 xd ||| put 76 xa ||| put 70 xb)
  | .shl xd xa xb => some (put 88 0x1A#8 ||| put 82 xd ||| put 76 xa ||| put 70 xb)
  | .shr xd xa xb => some (put 88 0x1B#8 ||| put 82 xd ||| put 76 xa ||| put 70 xb)
  | .sar xd xa xb => some (put 88 0x1C#8 ||| put 82 xd ||| put 76 xa ||| put 70 xb)
  | .min xd xa xb u => some (put 88 0x1D#8 ||| put 82 xd ||| put 76 xa ||| put 70 xb ||| putBit 48 u)
  | .max xd xa xb u => some (put 88 0x1E#8 ||| put 82 xd ||| put 76 xa ||| put 70 xb ||| putBit 48 u)
  | .cmp xd xa xb cond => some (put 88 0x1F#8 ||| put 82 xd ||| put 76 xa ||| put 70 xb ||| put 49 cond)
  | .addi xd xa imm => some (put 88 0x20#8 ||| put 82 xd ||| put 76 xa ||| put 0 imm)
  | .muli xd xa imm => some (put 88 0x21#8 ||| put 82 xd ||| put 76 xa ||| put 0 imm)
  | .andi xd xa imm => some (put 88 0x22#8 ||| put 82 xd ||| put 76 xa ||| put 0 imm)
  | .ori xd xa imm => some (put 88 0x23#8 ||| put 82 xd ||| put 76 xa ||| put 0 imm)
  | .xori xd xa imm => some (put 88 0x24#8 ||| put 82 xd ||| put 76 xa ||| put 0 imm)
  | .shli xd xa imm => some (put 88 0x25#8 ||| put 82 xd ||| put 76 xa ||| put 0 imm)
  | .shri xd xa imm => some (put 88 0x26#8 ||| put 82 xd ||| put 76 xa ||| put 0 imm)
  | .sari xd xa imm => some (put 88 0x27#8 ||| put 82 xd ||| put 76 xa ||| put 0 imm)
  | .cmpi xd xa imm cond => some (put 88 0x28#8 ||| put 82 xd ||| put 76 xa ||| put 0 imm ||| put 64 cond)
  | .movi xd imm => some (put 88 0x29#8 ||| put 82 xd ||| put 0 imm)
  | .clz xd xa => some (put 88 0x2A#8 ||| put 82 xd ||| put 76 xa)
  | .ctz xd xa => some (put 88 0x2B#8 ||| put 82 xd ||| put 76 xa)
  | .popc xd xa => some (put 88 0x2C#8 ||| put 82 xd ||| put 76 xa)
  | .sext xd xa imm => some (put 88 0x2D#8 ||| put 82 xd ||| put 76 xa ||| put 0 imm)
  | .zext xd xa imm => some (put 88 0x2E#8 ||| put 82 xd ||| put 76 xa ||| put 0 imm)
  | .sel xd xa xb xc => some (put 88 0x2F#8 ||| put 82 xd ||| put 76 xa ||| put 70 xb ||| put 64 xc)
  | .fadd xd xa xb width rmode => some (put 88 0x30#8 ||| put 82 xd ||| put 76 xa ||| put 70 xb ||| putBit 48 width ||| put 49 rmode)
  | .fsub xd xa xb width rmode => some (put 88 0x31#8 ||| put 82 xd ||| put 76 xa ||| put 70 xb ||| putBit 48 width ||| put 49 rmode)
  | .fmul xd xa xb width rmode => some (put 88 0x32#8 ||| put 82 xd ||| put 76 xa ||| put 70 xb ||| putBit 48 width ||| put 49 rmode)
  | .ffma xd xa xb xc width rmode => some (put 88 0x33#8 ||| put 82 xd ||| put 76 xa ||| put 70 xb ||| put 64 xc ||| putBit 48 width ||| put 49 rmode)
  | .fdiv xd xa xb width rmode => some (put 88 0x34#8 ||| put 82 xd ||| put 76 xa ||| put 70 xb ||| putBit 48 width ||| put 49 rmode)
  | .fsqrt xd xa width rmode => some (put 88 0x35#8 ||| put 82 xd ||| put 76 xa ||| putBit 48 width ||| put 49 rmode)
  | .fmin xd xa xb width => some (put 88 0x36#8 ||| put 82 xd ||| put 76 xa ||| put 70 xb ||| putBit 48 width)
  | .fmax xd xa xb width => some (put 88 0x37#8 ||| put 82 xd ||| put 76 xa ||| put 70 xb ||| putBit 48 width)
  | .fcmp xd xa xb width cond => some (put 88 0x38#8 ||| put 82 xd ||| put 76 xa ||| put 70 xb ||| putBit 48 width ||| put 52 cond)
  | .fcvt xd xa stype dtype rmode => some (put 88 0x39#8 ||| put 82 xd ||| put 76 xa ||| put 56 stype ||| put 59 dtype ||| put 49 rmode)
  | .br xa xb cond tslot imm => some (put 88 0x40#8 ||| put 82 xa ||| put 76 xb ||| put 72 cond ||| put 69 tslot ||| put 0 imm)
  | .bri xa k cond tslot imm => some (put 88 0x41#8 ||| put 82 xa ||| put 76 k ||| put 72 cond ||| put 69 tslot ||| put 0 imm)
  | .jmp tslot imm => some (put 88 0x42#8 ||| put 69 tslot ||| put 0 imm)
  | .jmpr xa => some (put 88 0x43#8 ||| put 82 xa)
  | .call tslot imm => some (put 88 0x44#8 ||| put 69 tslot ||| put 0 imm)
  | .callr xa => some (put 88 0x45#8 ||| put 82 xa)
  | .loop xa tslot imm => some (put 88 0x46#8 ||| put 82 xa ||| put 69 tslot ||| put 0 imm)
  | .cmpsk xa xb cond skip => some (put 88 0x47#8 ||| put 82 xa ||| put 76 xb ||| put 72 cond ||| put 67 skip)
  | .cmpski xa cond skip imm => some (put 88 0x48#8 ||| put 82 xa ||| put 72 cond ||| put 67 skip ||| put 0 imm)
  | .ld xd xa imm size sx => some (put 88 0x50#8 ||| put 82 xd ||| put 76 xa ||| put 0 imm ||| put 64 size ||| putBit 66 sx)
  | .st xd xa imm size => some (put 88 0x51#8 ||| put 82 xd ||| put 76 xa ||| put 0 imm ||| put 64 size)
  | .lda xd xa imm size sx scope => some (put 88 0x52#8 ||| put 82 xd ||| put 76 xa ||| put 0 imm ||| put 64 size ||| putBit 66 sx ||| put 67 scope)
  | .stl xd xa imm size scope => some (put 88 0x53#8 ||| put 82 xd ||| put 76 xa ||| put 0 imm ||| put 64 size ||| put 67 scope)
  | .aadd xd xa xb size scope acq rel => some (put 88 0x54#8 ||| put 82 xd ||| put 76 xa ||| put 70 xb ||| put 48 size ||| put 50 scope ||| putBit 52 acq ||| putBit 53 rel)
  | .amin xd xa xb size scope acq rel u => some (put 88 0x55#8 ||| put 82 xd ||| put 76 xa ||| put 70 xb ||| put 48 size ||| put 50 scope ||| putBit 52 acq ||| putBit 53 rel ||| putBit 54 u)
  | .amax xd xa xb size scope acq rel u => some (put 88 0x56#8 ||| put 82 xd ||| put 76 xa ||| put 70 xb ||| put 48 size ||| put 50 scope ||| putBit 52 acq ||| putBit 53 rel ||| putBit 54 u)
  | .aand xd xa xb size scope acq rel => some (put 88 0x57#8 ||| put 82 xd ||| put 76 xa ||| put 70 xb ||| put 48 size ||| put 50 scope ||| putBit 52 acq ||| putBit 53 rel)
  | .aor xd xa xb size scope acq rel => some (put 88 0x58#8 ||| put 82 xd ||| put 76 xa ||| put 70 xb ||| put 48 size ||| put 50 scope ||| putBit 52 acq ||| putBit 53 rel)
  | .axor xd xa xb size scope acq rel => some (put 88 0x59#8 ||| put 82 xd ||| put 76 xa ||| put 70 xb ||| put 48 size ||| put 50 scope ||| putBit 52 acq ||| putBit 53 rel)
  | .aswp xd xa xb size scope acq rel => some (put 88 0x5A#8 ||| put 82 xd ||| put 76 xa ||| put 70 xb ||| put 48 size ||| put 50 scope ||| putBit 52 acq ||| putBit 53 rel)
  | .acas xd xa xb xc size scope acq rel => some (put 88 0x5B#8 ||| put 82 xd ||| put 76 xa ||| put 70 xb ||| put 64 xc ||| put 48 size ||| put 50 scope ||| putBit 52 acq ||| putBit 53 rel)
  | .red xa xb scope op type => some (put 88 0x5C#8 ||| put 76 xa ||| put 70 xb ||| put 50 scope ||| put 56 op ||| put 58 type)
  | .tld td shape fmt xbase xstride xbound quant imm => some (put 88 0x60#8 ||| put 83 td ||| put 80 shape ||| put 75 fmt ||| put 69 xbase ||| put 63 xstride ||| put 57 xbound ||| put 53 quant ||| put 0 imm)
  | .tst ts shape fmt xbase xstride xbound imm => some (put 88 0x61#8 ||| put 83 ts ||| put 80 shape ||| put 75 fmt ||| put 69 xbase ||| put 63 xstride ||| put 57 xbound ||| put 0 imm)
  | .tldx td shape fmt xbase xpb ti quant imm => some (put 88 0x62#8 ||| put 83 td ||| put 80 shape ||| put 75 fmt ||| put 69 xbase ||| put 63 xpb ||| put 57 ti ||| put 53 quant ||| put 0 imm)
  | .tstx ts shape fmt xbase xpb ti imm => some (put 88 0x63#8 ||| put 83 ts ||| put 80 shape ||| put 75 fmt ||| put 69 xbase ||| put 63 xpb ||| put 57 ti ||| put 0 imm)
  | .tzero td shape fmt quant => some (put 88 0x64#8 ||| put 83 td ||| put 60 shape ||| put 55 fmt ||| put 51 quant)
  | .tfill td shape fmt quant xs => some (put 88 0x65#8 ||| put 83 td ||| put 60 shape ||| put 55 fmt ||| put 51 quant ||| put 45 xs)
  | .tmov td ta => some (put 88 0x66#8 ||| put 83 td ||| put 78 ta)
  | .tmovx ta xs imm => some (put 88 0x67#8 ||| put 78 ta ||| put 45 xs ||| put 0 imm)
  | .tmovs td ta xs imm => some (put 88 0x68#8 ||| put 83 td ||| put 78 ta ||| put 45 xs ||| put 0 imm)
  | .tshr ta xs => some (put 88 0x69#8 ||| put 78 ta ||| put 45 xs)
  | .treshape td ta shape fmt quant => some (put 88 0x6A#8 ||| put 83 td ||| put 78 ta ||| put 60 shape ||| put 55 fmt ||| put 51 quant)
  | .mpin pin ta tb => some (put 88 0x70#8 ||| put 63 pin ||| put 78 ta ||| put 73 tb)
  | .mma acc pin ta tb z => some (put 88 0x71#8 ||| put 65 acc ||| put 63 pin ||| put 78 ta ||| put 73 tb ||| putBit 40 z)
  | .mmat acc pin ta z half => some (put 88 0x72#8 ||| put 65 acc ||| put 63 pin ||| put 78 ta ||| putBit 40 z ||| putBit 39 half)
  | .mopa acc ta tb z half => some (put 88 0x73#8 ||| put 65 acc ||| put 78 ta ||| put 73 tb ||| putBit 40 z ||| putBit 39 half)
  | .mdrain td acc shape fmt quant imm rnd inf amax => some (put 88 0x74#8 ||| put 83 td ||| put 65 acc ||| put 60 shape ||| put 55 fmt ||| put 51 quant ||| put 0 imm ||| put 43 rnd ||| putBit 42 inf ||| putBit 41 amax)
  | .maccld acc ta imm z => some (put 88 0x75#8 ||| put 65 acc ||| put 78 ta ||| put 0 imm ||| putBit 40 z)
  | .wdrain td pin sel => some (put 88 0x76#8 ||| put 83 td ||| put 63 pin ||| put 32 sel)
  | .mzero acc => some (put 88 0x77#8 ||| put 65 acc)
  | .vadd td ta tb xs form rnd inf => some (put 88 0x80#8 ||| put 83 td ||| put 78 ta ||| put 73 tb ||| put 45 xs ||| put 36 form ||| put 43 rnd ||| putBit 42 inf)
  | .vsub td ta tb xs form rnd inf => some (put 88 0x81#8 ||| put 83 td ||| put 78 ta ||| put 73 tb ||| put 45 xs ||| put 36 form ||| put 43 rnd ||| putBit 42 inf)
  | .vmul td ta tb xs form rnd inf => some (put 88 0x82#8 ||| put 83 td ||| put 78 ta ||| put 73 tb ||| put 45 xs ||| put 36 form ||| put 43 rnd ||| putBit 42 inf)
  | .vfma td ta tb xs form tc rnd inf => some (put 88 0x83#8 ||| put 83 td ||| put 78 ta ||| put 73 tb ||| put 45 xs ||| put 36 form ||| put 68 tc ||| put 43 rnd ||| putBit 42 inf)
  | .vmin td ta tb xs form => some (put 88 0x84#8 ||| put 83 td ||| put 78 ta ||| put 73 tb ||| put 45 xs ||| put 36 form)
  | .vmax td ta tb xs form => some (put 88 0x85#8 ||| put 83 td ||| put 78 ta ||| put 73 tb ||| put 45 xs ||| put 36 form)
  | .vand td ta tb xs form => some (put 88 0x86#8 ||| put 83 td ||| put 78 ta ||| put 73 tb ||| put 45 xs ||| put 36 form)
  | .vor td ta tb xs form => some (put 88 0x87#8 ||| put 83 td ||| put 78 ta ||| put 73 tb ||| put 45 xs ||| put 36 form)
  | .vxor td ta tb xs form => some (put 88 0x88#8 ||| put 83 td ||| put 78 ta ||| put 73 tb ||| put 45 xs ||| put 36 form)
  | .vshl td ta tb xs form => some (put 88 0x89#8 ||| put 83 td ||| put 78 ta ||| put 73 tb ||| put 45 xs ||| put 36 form)
  | .vshr td ta tb xs form sel => some (put 88 0x8A#8 ||| put 83 td ||| put 78 ta ||| put 73 tb ||| put 45 xs ||| put 36 form ||| put 32 sel)
  | .vcmp td ta tb xs form shape fmt sel => some (put 88 0x8B#8 ||| put 83 td ||| put 78 ta ||| put 73 tb ||| put 45 xs ||| put 36 form ||| put 60 shape ||| put 55 fmt ||| put 32 sel)
  | .vsel td ta tb xs form tc => some (put 88 0x8C#8 ||| put 83 td ||| put 78 ta ||| put 73 tb ||| put 45 xs ||| put 36 form ||| put 68 tc)
  | .vabs td ta => some (put 88 0x8D#8 ||| put 83 td ||| put 78 ta)
  | .vneg td ta => some (put 88 0x8E#8 ||| put 83 td ||| put 78 ta)
  | .vdiv td ta tb xs form rnd inf => some (put 88 0x8F#8 ||| put 83 td ||| put 78 ta ||| put 73 tb ||| put 45 xs ||| put 36 form ||| put 43 rnd ||| putBit 42 inf)
  | .vcvt td ta tb tc shape fmt quant rnd inf amax => some (put 88 0x90#8 ||| put 83 td ||| put 78 ta ||| put 73 tb ||| put 68 tc ||| put 60 shape ||| put 55 fmt ||| put 51 quant ||| put 43 rnd ||| putBit 42 inf ||| putBit 41 amax)
  | .vexp2 td ta => some (put 88 0x91#8 ||| put 83 td ||| put 78 ta)
  | .vlog2 td ta => some (put 88 0x92#8 ||| put 83 td ||| put 78 ta)
  | .vrcp td ta rnd inf => some (put 88 0x93#8 ||| put 83 td ||| put 78 ta ||| put 43 rnd ||| putBit 42 inf)
  | .vrsq td ta => some (put 88 0x94#8 ||| put 83 td ||| put 78 ta)
  | .vsqrt td ta rnd inf => some (put 88 0x95#8 ||| put 83 td ||| put 78 ta ||| put 43 rnd ||| putBit 42 inf)
  | .vtanh td ta => some (put 88 0x96#8 ||| put 83 td ||| put 78 ta)
  | .vsigm td ta => some (put 88 0x97#8 ||| put 83 td ||| put 78 ta)
  | .vgelu td ta => some (put 88 0x98#8 ||| put 83 td ||| put 78 ta)
  | .vamax ta tb quant => some (put 88 0x99#8 ||| put 78 ta ||| put 73 tb ||| put 51 quant)
  | .vrand td shape fmt quant => some (put 88 0x9A#8 ||| put 83 td ||| put 60 shape ||| put 55 fmt ||| put 51 quant)
  | .viota td shape fmt quant xs imm => some (put 88 0x9B#8 ||| put 83 td ||| put 60 shape ||| put 55 fmt ||| put 51 quant ||| put 45 xs ||| put 0 imm)
  | .vclamp td ta tb tc xs imm form => some (put 88 0x9C#8 ||| put 83 td ||| put 78 ta ||| put 73 tb ||| put 68 tc ||| put 45 xs ||| put 0 imm ||| put 36 form)
  | .vrsum td ta shape fmt rnd inf => some (put 88 0xA0#8 ||| put 83 td ||| put 78 ta ||| put 60 shape ||| put 55 fmt ||| put 43 rnd ||| putBit 42 inf)
  | .vrmax td ta shape fmt => some (put 88 0xA1#8 ||| put 83 td ||| put 78 ta ||| put 60 shape ||| put 55 fmt)
  | .vrmin td ta shape fmt => some (put 88 0xA2#8 ||| put 83 td ||| put 78 ta ||| put 60 shape ||| put 55 fmt)
  | .vcsum td ta shape fmt rnd inf => some (put 88 0xA3#8 ||| put 83 td ||| put 78 ta ||| put 60 shape ||| put 55 fmt ||| put 43 rnd ||| putBit 42 inf)
  | .vcmax td ta shape fmt => some (put 88 0xA4#8 ||| put 83 td ||| put 78 ta ||| put 60 shape ||| put 55 fmt)
  | .vcmin td ta shape fmt => some (put 88 0xA5#8 ||| put 83 td ||| put 78 ta ||| put 60 shape ||| put 55 fmt)
  | .vtrans td ta => some (put 88 0xA6#8 ||| put 83 td ||| put 78 ta)
  | .vbcast td ta shape imm sel => some (put 88 0xA7#8 ||| put 83 td ||| put 78 ta ||| put 60 shape ||| put 0 imm ||| put 32 sel)
  | .vshuf td ta tb form => some (put 88 0xA8#8 ||| put 83 td ||| put 78 ta ||| put 73 tb ||| put 36 form)
  | .vscan td ta sel rnd inf => some (put 88 0xA9#8 ||| put 83 td ||| put 78 ta ||| put 32 sel ||| put 43 rnd ||| putBit 42 inf)
  | .vrdot td ta tb shape fmt rnd inf form => some (put 88 0xAA#8 ||| put 83 td ||| put 78 ta ||| put 73 tb ||| put 60 shape ||| put 55 fmt ||| put 43 rnd ||| putBit 42 inf ||| put 36 form)
  | .skinit xa xb xc depth lgw scale seedset => some (put 88 0xB0#8 ||| put 76 xa ||| put 70 xb ||| put 64 xc ||| put 0 depth ||| put 8 lgw ||| put 16 scale ||| put 24 seedset)
  | .skzero xa => some (put 88 0xB1#8 ||| put 76 xa)
  | .skupd xa ta xb tk sel => some (put 88 0xB2#8 ||| put 76 xa ||| put 59 ta ||| put 70 xb ||| put 51 tk ||| put 36 sel)
  | .skqry td xa xb tk sel shape => some (put 88 0xB3#8 ||| put 59 td ||| put 76 xa ||| put 70 xb ||| put 51 tk ||| put 36 sel ||| put 0 shape)
  | .skadd xa xb => some (put 88 0xB4#8 ||| put 76 xa ||| put 70 xb)
  | .skmul xa xb => some (put 88 0xB5#8 ||| put 76 xa ||| put 70 xb)
  | .skfence => some (put 88 0xB6#8)
  | .skstat xd xa sel => some (put 88 0xB7#8 ||| put 82 xd ||| put 76 xa ||| put 36 sel)
  | .gqpush xa ta index imm rel scope => some (put 88 0xC0#8 ||| put 76 xa ||| put 59 ta ||| put 51 index ||| put 0 imm ||| putBit 35 rel ||| put 32 scope)
  | .gqpop xd td index imm acq scope => some (put 88 0xC1#8 ||| put 82 xd ||| put 59 td ||| put 51 index ||| put 0 imm ||| putBit 34 acq ||| put 32 scope)
  | .gqpops xd td index acq scope => some (put 88 0xC2#8 ||| put 82 xd ||| put 59 td ||| put 51 index ||| putBit 34 acq ||| put 32 scope)
  | .gqstat xd index imm sel => some (put 88 0xC3#8 ||| put 82 xd ||| put 51 index ||| put 0 imm ||| put 36 sel)
  | .msgsend xa xb ta rel scope => some (put 88 0xC4#8 ||| put 76 xa ||| put 70 xb ||| put 59 ta ||| putBit 35 rel ||| put 32 scope)
  | .msgwait xd => some (put 88 0xC5#8 ||| put 82 xd)
  | .msgrecv xd td acq scope => some (put 88 0xC6#8 ||| put 82 xd ||| put 59 td ||| putBit 34 acq ||| put 32 scope)
  | .cpygo xd index => some (put 88 0xC7#8 ||| put 82 xd ||| put 51 index)
  | .cpywait xd xa xb => some (put 88 0xC8#8 ||| put 82 xd ||| put 76 xa ||| put 70 xb)
  | .cpystat xd index => some (put 88 0xC9#8 ||| put 82 xd ||| put 51 index)
  | .cpycancel xd index => some (put 88 0xCA#8 ||| put 82 xd ||| put 51 index)
  | .lkred xd xa xb index => some (put 88 0xD0#8 ||| put 82 xd ||| put 76 xa ||| put 70 xb ||| put 51 index)
  | .lkskadd xd xa index => some (put 88 0xD1#8 ||| put 82 xd ||| put 76 xa ||| put 51 index)
  | .lkwait xd xa xb => some (put 88 0xD2#8 ||| put 82 xd ||| put 76 xa ||| put 70 xb)
  | .lkstat xd xa => some (put 88 0xD3#8 ||| put 82 xd ||| put 76 xa)
  | .syarr xd index rel => some (put 88 0xE0#8 ||| put 82 xd ||| put 51 index ||| putBit 35 rel)
  | .sywait xd xa index acq => some (put 88 0xE1#8 ||| put 82 xd ||| put 76 xa ||| put 51 index ||| putBit 34 acq)
  | .sybar xd index rel acq => some (put 88 0xE2#8 ||| put 82 xd ||| put 51 index ||| putBit 35 rel ||| putBit 34 acq)
  | .sybc xd xa xc index sel rel acq => some (put 88 0xE3#8 ||| put 82 xd ||| put 76 xa ||| put 64 xc ||| put 51 index ||| put 36 sel ||| putBit 35 rel ||| putBit 34 acq)
  | .syred xd xa xc index sel u rel acq => some (put 88 0xE4#8 ||| put 82 xd ||| put 76 xa ||| put 64 xc ||| put 51 index ||| put 36 sel ||| putBit 40 u ||| putBit 35 rel ||| putBit 34 acq)
  | .sygen xd index => some (put 88 0xE5#8 ||| put 82 xd ||| put 51 index)
  | .rzinit xa xb => some (put 88 0xE6#8 ||| put 76 xa ||| put 70 xb)
  | .rzarr xa rel scope => some (put 88 0xE7#8 ||| put 76 xa ||| putBit 35 rel ||| put 32 scope)
  | .rzwait xd xa xb acq scope => some (put 88 0xE8#8 ||| put 82 xd ||| put 76 xa ||| put 70 xb ||| putBit 34 acq ||| put 32 scope)
  | .acq scope => some (put 88 0xE9#8 ||| put 32 scope)
  | .rel scope => some (put 88 0xEA#8 ||| put 32 scope)
  | .fence => some (put 88 0xEB#8)
  | .qfence imm => some (put 88 0xEC#8 ||| put 0 imm)
  | .hint k payload => some (put 88 k ||| put 0 payload)
  | .lineFetch => none
  | .engineIssue => none
  | .retire => none
  | .storeDrainWrite => none
  | .preciseFaultEntry _ _ _ _ => none
  | .afterRetireEntry _ _ _ _ => none
  | .asynchronousEntry => none
  | .deferredReportArrival _ => none
  | .preEmptionSignal => none
  | .resumptionEntry _ _ => none
  | .machineCheck _ _ _ => none
  | .correctedError _ _ _ => none
  | .hbmChannelSparing _ => none
  | .scrub => none
  | .sleepWake => none
  | .syncWaitTimeout => none
  | .copyDeadlineLate => none
  | .collectiveDeadlineLate => none
  | .roundComplete _ => none
  | .apertureAccessPerform => none
  | .copyTransferBegin _ => none
  | .copyBeat => none
  | .transferComplete _ => none
  | .transferError _ => none
  | .postQueueSend => none
  | .redPerform _ => none
  | .sketchOperationBegin _ => none
  | .counterApply _ _ => none
  | .sketchAcknowledge _ => none
  | .gradientEntryArrival _ => none
  | .windowCountReturn _ => none
  | .messageArrival _ => none
  | .undeliverableAccept _ => none
  | .collectivePairing _ => none
  | .collectiveComplete _ => none
  | .sideLogDoorbell _ _ => none
  | .sideLogDiscard _ _ _ => none
  | .permissionTlbMiss _ => none
  | .memorySideWalk _ _ _ => none
  | .windowGranuleFill _ => none
  | .clusterCacheFill _ => none
  | .clusterCacheVictim _ _ => none
  | .l2Victim _ => none
  | .versionWrapSweep _ => none
  | .routerCombine _ _ => none
  | .hostPostedWrite _ _ _ _ _ => none
  | .hostReadRequest _ _ _ => none
  | .cxlMemRequest _ _ => none
  | .bisnpResponse _ => none
  | .hostSnoop _ => none
  | .commandDoorbell _ _ => none
  | .commandRegisterWrite _ _ _ => none
  | .launch _ => none
  | .cancel _ => none
  | .mapPages _ => none
  | .unmapPages _ => none
  | .remapPages _ => none
  | .migrate _ => none
  | .partition _ => none
  | .restitch _ => none
  | .restitchComplete _ => none
  | .retireCore _ => none
  | .preEmpt _ => none
  | .resumePartition _ => none
  | .signalToken _ => none
  | .setToken _ => none
  | .waitToken _ => none
  | .waitMet _ => none
  | .queryCounters _ => none
  | .updateFirmware _ => none
  | .attest _ => none
  | .bindBridge _ => none
  | .setPatience _ => none
  | .getVersion => none
  | .getCapabilities => none
  | .negotiateAlgorithms => none
  | .getDigests => none
  | .getCertificate _ _ => none
  | .challenge _ => none
  | .getMeasurements => none
  | .dispatcherRound _ => none
  | .strandStart _ _ => none
  | .patienceExpiry _ => none
  | .reservationExpiry _ => none
  | .peerReservationReport _ => none
  | .strandEndReport => none
  | .launchEnd _ => none
  | .completionRecordWrite _ => none
  | .colourDrainComplete _ => none
  | .preEmptionPatienceExpiry _ => none
  | .flitReceive _ _ => none
  | .ackReceive _ _ => none
  | .nakReceive _ _ => none
  | .portFailure _ => none
  | .portDegrade _ => none
  | .bridgeTraining => none
  | .bridgeRead _ => none
  | .bridgeWrite _ => none
  | .bridgeAtomic _ => none
  | .bridgeMessage _ => none
  | .bridgeCollective _ => none
  | .bridgeCompletion _ => none
  | .bridgeAcknowledgement _ => none
  | .powerSample _ => none
  | .clusterGate _ => none
  | .idleTimeout => none
  | .wake => none
  | .d3hot => none
  | .packageReset => none
  | .coreReset _ => none
  | .valueReturn => none
  | .instructionComplete => none
  | .cxlCacheResponse _ => none
  | .portRetrainComplete _ => none
  | .windowBaseWrite _ => none

/-- The instruction that the decoder reads from an instruction whose bits are w, numbered as the opcode table numbers them:
bit 0 is the least significant bit of the first 32-bit word; bits above nbits are zero. -/
def decodeTableWord (nbits w : Nat) : Option Instr :=
  match decode (BitVec.ofNat 96 (w % 2 ^ nbits)) with
  | .ok i => some i
  | .error _ => none


end Sys2Proof
end

