-- ==== Sys2Proof/Machine/Fetch.lean ====
section
/-! DEFINITION. Instruction fetch (R59-R64, R104, R298, R340-R342): the line buffer and the instruction cache, the line of a PC, its checks,
and the check of a branch target. -/

namespace Sys2Proof.Machine

/-- The tag of the fetch line at an address: the page's ASID tag and the line. -/
def State.codeTag (s : State) (line : Nat) : Nat := tagOf s.core.asid.toNat line

/-- A line that the line buffer or the instruction cache holds. -/
def heldLine (ls : List CodeLine) (tag : Nat) : Option (List Byte) := (ls.find? fun l => l.tag == tag).map CodeLine.bytes

/-- The bytes of a fetch line that the front end holds: in the line buffer, else in the instruction cache. -/
def State.cachedLine (s : State) (line : Nat) : Option (List Byte) :=
  match heldLine s.core.lineBuffer (s.codeTag line) with
  | some b => some b
  | none => heldLine s.core.icache (s.codeTag line)

/-- XOR of the bits of a number below n. -/
def parity (n x : Nat) : Bool := (List.range n).foldl (fun p i => p.xor (x.testBit i)) false

/-- The 96 bits of a slot of a line (R59). -/
def slotOf (bytes : List Byte) (slot : Nat) : BitVec 96 := BitVec.ofNat 96 (ofBytes ((bytes.drop (12 * slot)).take 12))

/-- The line word (R60). -/
def lineWord (bytes : List Byte) : BitVec 32 := BitVec.ofNat 32 (ofBytes ((bytes.drop 60).take 4))

/-- lpar: even parity over bits [20:0]. -/
def lparOk (lw : BitVec 32) : Bool := parity 21 lw.toNat == lw.getLsbD 21

/-- spar of a slot. -/
def sparOk (bytes : List Byte) (slot : Nat) : Bool :=
  parity 96 (slotOf bytes slot).toNat == (lineWord bytes).getLsbD (16 + slot)

/-- Whether a line passes its fetch parity checks (R62). -/
def lineOk (bytes : List Byte) : Bool := lparOk (lineWord bytes) && (List.range 5).all fun i => sparOk bytes i

/-- A byte of code that the caches give: the strand's own stores since the latest IFENCE are not used (R298). -/
def State.codeByte (s : State) (va : Nat) (v : Byte) : Byte := (lookup s.core.codeView (tagOf s.core.asid.toNat va)).getD v

/-- The line as the caches and memory hold it: through a stash window, else from the cluster cache, the aperture's addresses too (R340). -/
def State.loadLine (s : State) (line : Nat) : List Byte := (List.range 64).map fun i =>
  s.codeByte (line + i) (s.peekOutside s.core.asid.toNat (line + i))

/-- The line from the cluster cache or beyond, for a refetch (R62). -/
def State.reloadLine (s : State) (line : Nat) : List Byte :=
  (List.range 64).map fun i => s.codeByte (line + i) (s.belowStash s.core.asid.toNat s.core.colour.toNat (line + i))

/-- The line buffer holds the four lines fetched most recently (R340): those that entered it last, since a hit takes a line from it and fetches
none (DESIGN CHOICE, log entry 71). -/
def Core.bufferLine (c : Core) (l : CodeLine) : Core :=
  { c with lineBuffer := (l :: c.lineBuffer.filter fun m => m.tag != l.tag).take 4 }

/-- The set of a line in the instruction cache of 256 sets. -/
def codeSet (tag : Nat) : Nat := Config.codeSet tag % 256

/-- The instruction cache takes a line: 256 sets of 4 ways, of a full set the oldest line leaves (R340; which one, and the sets, DESIGN
CHOICE, log entry 42). -/
def Core.cacheLine (c : Core) (l : CodeLine) : Core :=
  let kept := c.icache.filter fun m => m.tag != l.tag
  let room :=
    if kept.length < 4 then kept
    else
      let set := kept.filter fun m => codeSet m.tag == codeSet l.tag
      if set.length < 4 then kept else match set.getLast? with
        | some old => kept.erase old
        | none => kept
  { c with icache := l :: room }

/-- The instruction cache and the line buffer take a line (R342). -/
def State.cacheLine (s : State) (line : Nat) (bytes : List Byte) : State :=
  { s with core := (s.core.cacheLine ⟨s.codeTag line, bytes⟩).bufferLine ⟨s.codeTag line, bytes⟩ }

/-- A line is delivered (R342): from the line buffer, from the instruction cache, else filled; one that fails a parity check is discarded
and fetched once more from the cluster cache or beyond (R62). -/
def State.deliver (s : State) (line : Nat) : State × List Byte :=
  let filled := match heldLine s.core.lineBuffer (s.codeTag line), heldLine s.core.icache (s.codeTag line) with
    | some b, _ => (s, b)
    | none, some b => ({ s with core := s.core.bufferLine ⟨s.codeTag line, b⟩ }, b)
    | none, none =>
      let t := s.touchOutside line 64
      let b := t.loadLine line
      (t.cacheLine line b, b)
  if lineOk filled.2 then filled
  else
    let b := filled.1.reloadLine line
    (filled.1.cacheLine line b, b)

/-- A line that is at the peer while the bridge is down cannot be read (R443): the slot's fetch fault (R329;
DEDUCED, log entry 61). -/
def State.lineLost (s : State) (line : Nat) : Bool := (s.cachedLine line).isNone && (s.bridgeFault line (line + 64)).isSome

/-- Whether a slot's word holds BR, BRI, JMP, JMPR, CALL, CALLR or LOOP. -/
def isBranch (w : BitVec 96) : Bool := (w.extractLsb' 91 5 == 8#5) && decide ((w.extractLsb' 88 3).toNat < 7)

/-- The request for line L + 64 in sequential flow (R341): no slot of line L from the current one on holds a branch. -/
def State.prefetch (s : State) (line slot : Nat) (bytes : List Byte) : State :=
  if (List.range 5).any (fun i => decide (slot ≤ i) && isBranch (slotOf bytes i)) then s
  else if (s.checkAccess .fetch s.core.asid.toNat s.core.colour.toNat s.core.supervisor (line + 64)).isSome ∨ 2 ^ 52 ≤ line + 64 ∨
      s.card.translate s.core.asid.toNat s.core.colour.toNat (line + 64) = none ∨ s.lineLost (line + 64) = true then s
  else (s.deliver (line + 64)).1

/-- The class-3 fault of a fetch at a PC (R385); `info` is s.finfo (0 in sequential flow, the opcode for a branch target). -/
def State.fetchFault (s : State) (pc : Word) (info : Word) : Option Exc :=
  (s.checkAccess .fetch s.core.asid.toNat s.core.colour.toNat s.core.supervisor (lineOf pc).toNat).map fun d => ⟨3, d, pc, info⟩

/-- The fault of a PC that no line holds: sequential flow past the last line below 2^52, or a start at such a PC. Above the virtual
addresses no page is present; a PC that is no slot is an illegal target (the spec states no effect, DESIGN CHOICE, log entry 13). -/
def pcFault (pc : Word) : Option Exc :=
  if validPc pc then none
  else if 2 ^ 52 ≤ pc.toNat then some ⟨3, 0, pc, 0#64⟩
  else some ⟨1, 4, pc, 0#64⟩

/-- The instruction at the PC: translation, then the checks in the order of R73. The reserved bits of the line word (R63) are checked with
the reserved fields of the first slot that is reached, of a hint too (R71 against R63, DESIGN CHOICE, log entry 53). -/
def State.fetch (s : State) : Except Exc (State × Instr) := do
  let pc := s.core.pc
  match pcFault pc with
  | some x => .error x
  | none => .ok ()
  match s.fetchFault pc 0#64 with
  | some x => .error x
  | none => .ok ()
  need (!s.lineLost (lineOf pc).toNat) ⟨11, 1, pc, 0#64⟩
  let (t, bytes) := s.deliver (lineOf pc).toNat
  let slot := pcOffset pc / 12
  let w := slotOf bytes slot
  let lw := lineWord bytes
  let opcode : BitVec 8 := w.extractLsb' 88 8
  need (lparOk lw && sparOk bytes slot) ⟨11, 1, pc, 0#64⟩
  match decode w with
  | .error .illegalOpcode => .error (s.core.illegal 2 opcode)
  | .error .unassignedOpcode => .error (s.core.illegal 0 opcode)
  | .error e =>
    if lw.extractLsb' 9 7 ≠ 0#7 ∨ lw.extractLsb' 22 10 ≠ 0#10 then .error (s.core.illegal 1 opcode)
    else .error (s.core.illegal e.detail opcode)
  | .ok i =>
    if lw.extractLsb' 9 7 ≠ 0#7 ∨ lw.extractLsb' 22 10 ≠ 0#10 then .error (s.core.illegal 1 opcode)
    else .ok (t.prefetch (lineOf pc).toNat slot bytes, i)

/-- A transfer of control (R64, R106): the target must be a valid PC whose slot has its tmask bit set, and its line must be fetchable.
A line whose lpar fails, or that cannot be read over a bridge that is down (DEDUCED, log entry 61), has no tmask to check: the slot raises its
fault when it is reached. -/
def State.branchTo (s : State) (opcode : BitVec 8) (target : Word) : Except Stop State :=
  let bad : Exc := ⟨1, 4, target, opcode.setWidth 64⟩
  if !validPc target then trap bad
  else match s.fetchFault target (opcode.setWidth 64) with
    | some x => trap x
    | none =>
      if s.lineLost (lineOf target).toNat then .ok { s with core := { s.core with pc := target } } else
      let (t, bytes) := s.deliver (lineOf target).toNat
      let lw := lineWord bytes
      if lparOk lw && !lw.getLsbD (pcOffset target / 12) then trap bad
      else .ok { t with core := { t.core with pc := target } }

/-- The target of a branch with a label: imm64 counts lines from the branch's own, tslot names the slot (R68). -/
def Core.labelTarget (c : Core) (tslot : BitVec 3) (imm : BitVec 64) : Word :=
  lineOf c.pc + 64#64 * imm + BitVec.ofNat 64 (12 * tslot.toNat)

end Sys2Proof.Machine
end

