-- ==== Sys2Proof/Machine/ScalarMem.lean ====
section
/-! DEFINITION. Scalar memory instructions, group 0x50 (R114-R124). -/

namespace Sys2Proof.Machine

/-- The bytes at an address as a load of the strand sees them (R115). -/
def State.loadValue (s : State) (va n : Nat) : Nat := ofBytes (s.peekBytes va n)

/-- LD (R115): the bytes as the strand's caches give them, which it fills. -/
def State.ld (s : State) (xd xa : BitVec 6) (imm : BitVec 64) (size : BitVec 2) (sx : Bool) : Except Stop State := do
  let ea := s.core.ea xa imm
  let n := sizeBytes size
  s.scalarChecks .load 0x50#8 xd ea n
  let r := (ea.toNat, ea.toNat + n)
  if !s.loadClear r then await (s.loadWait r)
  else
    let s := s.readThrough
    let t := s.touchRange ea.toNat n
    .ok { t with core := t.core.setX xd (extendBytes n sx (s.loadValue ea.toNat n)) }

def execLd (xd xa : BitVec 6) (imm : BitVec 64) (size : BitVec 2) (sx : Bool) (s : State) : Host.Outcome State Fault Refusal :=
  s.finish (s.ld xd xa imm size sx)

/-- The store drain holds up to 32 retired scalar stores (R147). -/
def Core.scalarStores (c : Core) : Nat := (c.drain.filter fun e => !e.tile).length

/-- A retired scalar store enters the drain with the target its checks found (R147), and an STL with its scope. -/
def State.drainScalar (s : State) (scope : Option Nat) (va : Nat) (bs : List Byte) : State :=
  { s with core := { s.core with drain := s.core.drain ++ [⟨false, va, va + bs.length, scope, s.pieces va bs⟩] } }

/-- ST (R115). -/
def State.st (s : State) (xd xa : BitVec 6) (imm : BitVec 64) (size : BitVec 2) : Except Stop State := do
  let ea := s.core.ea xa imm
  let n := sizeBytes size
  s.scalarChecks .store 0x51#8 xd ea n
  if !s.storeClear (ea.toNat, ea.toNat + n) || 32 ≤ s.core.scalarStores then await .plain
  else .ok (s.drainScalar none ea.toNat (toBytes n (s.core.xr xd).toNat))

def execSt (xd xa : BitVec 6) (imm : BitVec 64) (size : BitVec 2) (s : State) : Host.Outcome State Fault Refusal :=
  s.finish (s.st xd xa imm size)

/-- The read of LDA (R117): the strand's own dirty bytes, every other byte from the coherence point of the scope. A line that only
cluster-mates have written is first written back (log entry 44), and waits for the host where it holds the line (R434). -/
def State.ldaRead (s : State) (xd xa : BitVec 6) (imm : BitVec 64) (size : BitVec 2) (sx : Bool) (scope : BitVec 2) : Except Stop State := do
  let ea := s.core.ea xa imm
  let n := sizeBytes size
  s.scalarChecks .load 0x52#8 xd ea n
  let r := (ea.toNat, ea.toNat + n)
  if !s.loadClear r then await (s.loadWait r)
  else
    let p := s.scopePoint scope.toNat ea.toNat
    let r := s.readThrough.yieldLine p ea.toNat
    let v := ofBytes ((List.range n).map fun i => r.acquireByte scope.toNat (ea.toNat + i))
    let t := (r.readAt p ea.toNat n).passCopies p ea.toNat
    s.whenMerged (s.loadWait (ea.toNat, ea.toNat + n)) { t with core := t.core.setX xd (extendBytes n sx v) }

/-- LDA (R117): its read, then one acquire. -/
def State.lda (s : State) (xd xa : BitVec 6) (imm : BitVec 64) (size : BitVec 2) (sx : Bool) (scope : BitVec 2) : Except Stop State := do
  let t ← s.ldaRead xd xa imm size sx scope
  .ok (t.acquireAt scope.toNat)

def execLda (xd xa : BitVec 6) (imm : BitVec 64) (size : BitVec 2) (sx : Bool) (scope : BitVec 2) (s : State) :
    Host.Outcome State Fault Refusal :=
  s.finish (s.lda xd xa imm size sx scope)

/-- The scope of an atomic: SYSTEM for peer and host memory (R121). -/
def State.effectiveScope (s : State) (scope : BitVec 2) (va : Nat) : Nat :=
  if s.isRemote s.core.asid.toNat s.core.colour.toNat va then 3 else scope.toNat

/-- STL (R118): at retire the release at its scope; its own store then performs from the drain, at the coherence point of that scope. -/
def State.stl (s : State) (xd xa : BitVec 6) (imm : BitVec 64) (size scope : BitVec 2) : Except Stop State := do
  let ea := s.core.ea xa imm
  let n := sizeBytes size
  s.scalarChecks .store 0x53#8 xd ea n
  if !s.storeClear (ea.toNat, ea.toNat + n) || !s.releaseReady scope.toNat || 32 ≤ s.core.scalarStores then await (.release scope.toNat)
  else
    s.whenMerged (.release scope.toNat)
      ((s.releaseAt scope.toNat).drainScalar (some scope.toNat) ea.toNat (toBytes n (s.core.xr xd).toNat))

def execStl (xd xa : BitVec 6) (imm : BitVec 64) (size scope : BitVec 2) (s : State) : Host.Outcome State Fault Refusal :=
  s.finish (s.stl xd xa imm size scope)

/-! ### Atomics (R119-R121) -/

/-- How an atomic computes its new value from the old one and b (R119), over n bits. -/
inductive AtomicOp where
  | add
  | min (u : Bool)
  | max (u : Bool)
  | and
  | or
  | xor
  | swap
  | cas (new : Nat)
deriving DecidableEq, Repr

/-- The new value, or none when nothing is written (R119). -/
def AtomicOp.apply (o : AtomicOp) (bits old b : Nat) : Option Nat :=
  let m := 2 ^ bits
  let sgn (v : Nat) : Int := if v < m / 2 then v else (v : Int) - m
  let less (u : Bool) : Bool := if u then decide (old ≤ b) else decide (sgn old ≤ sgn b)
  match o with
  | .add => some ((old + b) % m)
  | .min u => some (if less u then old else b)
  | .max u => some (if less u then b else old)
  | .and => some (old &&& b)
  | .or => some (old ||| b)
  | .xor => some (old ^^^ b)
  | .swap => some b
  | .cas new => if old = b then some (new % m) else none

/-- xd is zero-extended for AMIN.U and AMAX.U, sign-extended otherwise (R119). -/
def AtomicOp.signed : AtomicOp → Bool
  | .min u => !u
  | .max u => !u
  | _ => true

/-- An atomic: once every older store has performed (R116), the release under .REL, the indivisible read-modify-write at the coherence point of its scope, the acquire under .ACQ. -/
def State.atomic (s : State) (op : BitVec 8) (o : AtomicOp) (xd xa xb : BitVec 6) (size scope : BitVec 2) (acq rel : Bool) :
    Except Stop State := do
  let ea := s.core.xr xa
  let n := sizeBytes size
  s.scalarChecks .atomic op xd ea n
  let sc := s.effectiveScope scope ea.toNat
  let r := (ea.toNat, ea.toNat + n)
  if !s.drained || !s.ownUpdates.isEmpty || !s.loadClear r || !s.storeClear r || (rel && !s.releaseReady sc) then await (if rel then .release sc else .plain)
  else
    let b := (s.core.xr xb).toNat % 2 ^ (8 * n)
    let t := if rel then s.releaseAt sc else s
    let (old, t) := t.modifyAt sc ea.toNat n fun v => o.apply (8 * n) v b
    let t := if acq then t.acquireAt sc else t
    s.whenMerged { Wait.plain with sent := true } { t with core := t.core.setX xd (extendBytes n o.signed old) }

def execAadd (xd xa xb : BitVec 6) (size scope : BitVec 2) (acq rel : Bool) (s : State) : Host.Outcome State Fault Refusal :=
  s.finish (s.atomic 0x54#8 .add xd xa xb size scope acq rel)

def execAmin (xd xa xb : BitVec 6) (size scope : BitVec 2) (acq rel u : Bool) (s : State) : Host.Outcome State Fault Refusal :=
  s.finish (s.atomic 0x55#8 (.min u) xd xa xb size scope acq rel)

def execAmax (xd xa xb : BitVec 6) (size scope : BitVec 2) (acq rel u : Bool) (s : State) : Host.Outcome State Fault Refusal :=
  s.finish (s.atomic 0x56#8 (.max u) xd xa xb size scope acq rel)

def execAand (xd xa xb : BitVec 6) (size scope : BitVec 2) (acq rel : Bool) (s : State) : Host.Outcome State Fault Refusal :=
  s.finish (s.atomic 0x57#8 .and xd xa xb size scope acq rel)

def execAor (xd xa xb : BitVec 6) (size scope : BitVec 2) (acq rel : Bool) (s : State) : Host.Outcome State Fault Refusal :=
  s.finish (s.atomic 0x58#8 .or xd xa xb size scope acq rel)

def execAxor (xd xa xb : BitVec 6) (size scope : BitVec 2) (acq rel : Bool) (s : State) : Host.Outcome State Fault Refusal :=
  s.finish (s.atomic 0x59#8 .xor xd xa xb size scope acq rel)

def execAswp (xd xa xb : BitVec 6) (size scope : BitVec 2) (acq rel : Bool) (s : State) : Host.Outcome State Fault Refusal :=
  s.finish (s.atomic 0x5A#8 .swap xd xa xb size scope acq rel)

/-- ACAS: the new value stands in xc (R119). -/
def execAcas (xd xa xb xc : BitVec 6) (size scope : BitVec 2) (acq rel : Bool) (s : State) : Host.Outcome State Fault Refusal :=
  s.finish (s.atomic 0x5B#8 (.cas (s.core.xr xc).toNat) xd xa xb size scope acq rel)

/-! ### Posted reductions (R122-R124) -/

/-- A post of the strand in focus. -/
def State.newPost (s : State) (kind : PostKind) (op : BitVec 8) (mod : BitVec 19) (scope addr : Nat) (oper : Word) (values keys : Tile) :
    Post :=
  ⟨kind, op, mod, s.core.num, s.core.strand, s.core.asid.toNat, s.core.colour.toNat, s.core.supervisor, scope, addr, oper, values, keys, 0⟩

/-- The bytes of a tile's rows. -/
def Tile.size (t : Tile) : Nat := t.rows * t.rowbytes

/-- The bytes of a post's tiles in the post buffer; a message's payload is no copy of a tile (R219, R246, R252). -/
def Post.buffered (p : Post) : Nat :=
  match p.kind with
  | .message _ => 0
  | _ => p.values.size + p.keys.size

/-- The post buffer's 32 KiB hold the tiles of the posts not yet sent (R219). -/
def State.bufferRoom (s : State) (n : Nat) : Bool :=
  decide (n + s.core.posts.foldl (fun k p => k + p.buffered) 0 ≤ 32768)

/-- A post enters the strand's post queue. -/
def State.enqueue (s : State) (p : Post) : State := { s with core := { s.core with posts := s.core.posts ++ [p] } }

/-- The post queue holds 32 entries (R123). A parked strand makes no post that its program has not made: one in its handler waits (R32,
DEDUCED, log entry 46). -/
def State.postRoom (s : State) : Bool := decide (s.core.posts.length < 32) && !s.core.isParked

/-- Whether an address lies in a stash window or the sheaf aperture (R123). -/
def State.inStash (s : State) (va : Nat) : Bool :=
  (s.core.apertureAt va).isSome || (s.core.windowOff s.core.asid.toNat va).isSome

/-- RED up to its retire (R123): the core checks the canonical address, the alignment and the object table, and for a stash target
translation and permission as a store's. -/
def State.red (s : State) (xa xb : BitVec 6) (scope op type : BitVec 2) : Except Stop State := do
  let ea := s.core.xr xa
  let n := redBytes type.toNat
  let info := scalarInfo 0#6 0x5C#8
  check (ea.toNat < 2 ^ 52) ⟨4, 1, ea, info⟩
  check (ea.toNat % n == 0) ⟨4, 0, ea, info⟩
  if s.inStash ea.toNat then
    match s.accessFault .store ea.toNat (ea.toNat + n) with
    | some (_, d) => trap ⟨3, d, ea, info⟩
    | none => .ok ()
  else match s.readonlyByte ea.toNat (ea.toNat + n) with
    | some _ => trap ⟨3, 6, ea, info⟩
    | none => .ok ()
  if !s.postRoom || !s.postClear (ea.toNat, ea.toNat + n) then await .plain
  else
    let mod : BitVec 19 := scope.setWidth 19 <<< 2 ||| op.setWidth 19 <<< 8 ||| type.setWidth 19 <<< 10
    .ok (s.enqueue (s.newPost (.red op.toNat type.toNat) 0x5C#8 mod scope.toNat ea.toNat (s.core.xr xb) Tile.empty Tile.empty))

/-- RED (R122, R123): after its checks it enters the post queue; RED_PERFORM applies it. -/
def execRed (xa xb : BitVec 6) (scope op type : BitVec 2) (s : State) : Host.Outcome State Fault Refusal :=
  s.finish (s.red xa xb scope op type)

end Sys2Proof.Machine
end

