-- ==== Sys2Proof/Machine/Owlwire.lean ====
section
/-! DEFINITION. The Owlwire synchronisation network (R260-R275, R469, R470) and rendezvous objects (R276-R278). -/

namespace Sys2Proof.Machine

/-! ### Segments -/

/-- The strand index of s.strand (R25). -/
def Core.strandIndex (c : Core) : Nat := (c.strand.extractLsb' 0 16).toNat

/-- The incarnation of s.strand (R25). -/
def Core.incarnation (c : Core) : BitVec 16 := c.strand.extractLsb' 16 16

def Core.launchOf (c : Core) : BitVec 16 := c.strand.extractLsb' 32 16

/-- Whether a strand is a member of a segment. -/
def Segment.has (g : Segment) (launch : BitVec 16) (index : Nat) : Bool :=
  g.launch == launch && g.members.any fun m => m.index == index

/-- The segment of a channel number for the strand in focus: its member bit (R260, R262, R263). -/
def State.segmentAt (s : State) (ch : Nat) : Option (Nat × Segment) :=
  ((s.card.segments.zipIdx).find? fun p => p.1.name == ch && p.1.has s.core.launchOf s.core.strandIndex).map fun p => (p.2, p.1)

def State.setSegment (s : State) (i : Nat) (g : Segment) : State :=
  { s with card := { s.card with segments := s.card.segments.set i g } }

/-- A member of a segment by strand index. -/
def Segment.member (g : Segment) (index : Nat) : SyMember :=
  (g.members.find? fun m => m.index == index).getD ⟨index, none, 0, 0, []⟩

/-- A member's arrival (R264): its count goes up by one, and its content is held at its core. -/
def SyMember.arrive (m : SyMember) (core : Nat) (c : Contribution) : SyMember :=
  { m with count := m.count + 1#16, seat := core, arrivals := m.arrivals ++ [c] }

def Segment.arrive (g : Segment) (index core : Nat) (c : Contribution) : Segment :=
  { g with members := g.members.map fun m => if m.index = index then m.arrive core c else m }

/-- A generation that has been reached (R266). -/
def reached (gen x : BitVec 16) : Bool := decide (0 ≤ (gen - x).toInt)

/-- OP of R272: no exception, no flag. -/
def syOp (op : Nat) (u : Bool) (l h : Word) : Word :=
  let f32 (a b : Nat) : Nat := (roundVal fp32 .nearest false (addVal false (decodeFloat fp32 a) (decodeFloat fp32 b)).1).code
  match op with
  | 0 => l + h
  | 1 => if (if u then l.ule h else l.sle h) then l else h
  | 2 => if (if u then l.ule h else l.sle h) then h else l
  | 3 => l &&& h
  | 4 => l ||| h
  | 5 => l ^^^ h
  | 6 => BitVec.ofNat 64 (f32 (l.toNat % 2 ^ 32) (h.toNat % 2 ^ 32))
  | 7 => BitVec.ofNat 64 (roundVal fp64 .nearest false (addVal false (decodeFloat fp64 l.toNat) (decodeFloat fp64 h.toNat)).1).code
  | _ => BitVec.ofNat 64 (f32 (l.toNat % 2 ^ 32) (h.toNat % 2 ^ 32) + 2 ^ 32 * f32 (l.toNat / 2 ^ 32) (h.toNat / 2 ^ 32))

/-- A contribution with its operation, as a node passes it on (R470). -/
structure NodeValue where
  op : Nat
  u : Bool
  value : Word
deriving DecidableEq, Repr

/-- NODE(h, j) of R272 and R470 over the contributions by logical core. -/
def node (contrib : Nat → Option NodeValue) : Nat → Nat → Option NodeValue
  | 0, j => contrib j
  | h + 1, j =>
    match node contrib h (2 * j), node contrib h (2 * j + 1) with
    | none, r => r
    | l, none => l
    | some l, some r => some { l with value := syOp l.op l.u l.value r.value }

/-- The first arrivals of a segment's members, by logical core: the member's own, or the core of its standing arrival while it is not placed
(DEDUCED, log entry 55). -/
def Segment.firsts (g : Segment) : List (Nat × Contribution) :=
  g.members.map fun m => (m.core.getD m.seat, m.arrivals.headD .none)

/-- The contribution of a core; two standing ones of one core combine in the order of the members. -/
def contribAt (l : List (Nat × Contribution)) (core : Nat) : Option NodeValue :=
  (l.filterMap fun p => match p with
    | (c, .value op u v) => if c = core then some (⟨op, u, v⟩ : NodeValue) else none
    | _ => none).foldl (fun r v => match r with
      | none => some v
      | some l => some { l with value := syOp l.op l.u l.value v.value }) none

def offerAt (l : List (Nat × Contribution)) (core : Nat) : Option NodeValue :=
  l.findSome? fun p => match p with
    | (c, .offer v) => if c = core then some ⟨0, false, v⟩ else none
    | _ => none

/-- The broadcast value: the offer of the lowest-numbered offering member, or 0 (R273). -/
def broadcastOf (l : List (Nat × Contribution)) : Word :=
  (((List.range 256).findSome? fun j => offerAt l j).map NodeValue.value).getD 0#64

/-- The reduction, or 0 when no member contributed (R470). -/
def reductionOf (l : List (Nat × Contribution)) : Word := ((node (contribAt l) 8 0).map NodeValue.value).getD 0#64

/-- Every member has arrived for the next round (R264). -/
def Segment.ready (g : Segment) : Bool := !g.members.isEmpty && g.members.all fun m => !m.arrivals.isEmpty

/-- A round completes (R264): G goes up, and its result is held with that of the round before (R265). -/
def Segment.complete (g : Segment) : Segment :=
  let l := g.firsts
  { g with
    gen := g.gen + 1#16
    members := g.members.map fun m => { m with arrivals := m.arrivals.tail }
    results := ⟨g.gen + 1#16, broadcastOf l, reductionOf l⟩ :: g.results.take 1 }

def Segment.resultOf (g : Segment) (round : BitVec 16) : SyResult :=
  (g.results.find? fun r => r.round == round).getD ⟨round, 0, 0⟩

/-! ### Waits -/

/-- s.finfo of class 10: opcode and channel (R278). -/
def syncInfo (op : BitVec 8) (ch : Nat) : Word := BitVec.ofNat 64 (ch * 256 + op.toNat)

/-- A wait that times out under s.sytmo (R270). -/
def Core.timedOut (c : Core) : Bool :=
  c.sytmo != 0#64 && match c.waitFrom with
    | some w => decide (0 ≤ (c.cycle - w).toInt) && c.sytmo.ule (c.cycle - w)
    | none => false

/-- The instruction waits, and its count of s.sytmo runs from a clock on, unless it runs already. -/
def State.holdFrom (s : State) (clock : Word) : State :=
  ({ s with core := { s.core with waitFrom := some (s.core.waitFrom.getD clock) } } : State).hold .plain []

/-- The count runs from the clock in which the instruction stands at the head (R270). -/
def State.holdTimed (s : State) : State := s.holdFrom s.core.cycle

/-- The end of a wait that timed out (R270): the instruction retires with its late result, and traps after it under s.ps.sytrap. -/
def State.late (s : State) (trapped : Bool) (x : Exc) : Host.Outcome State Fault Refusal :=
  if trapped then .next (s.enterAfter x) else .next s.retire

/-- A result in xd after the acquire of a completed wait (R269). -/
def State.completeWait (s : State) (acq : Bool) (scope : Nat) : State := if acq then s.acquireAt scope else s

/-- What the SY instructions share: membership (R263). -/
def State.member (s : State) (op : BitVec 8) (ch : Nat) : Except Stop (Nat × Segment) :=
  match s.segmentAt ch with
  | some p => .ok p
  | none => trap ⟨10, 1, 0#64, syncInfo op ch⟩

/-- An arrival (R264, R265, R268): under .REL after a release at the channel's scope; the third outstanding arrival waits, and a parked
strand makes none (R32, R274). The target. -/
def State.arriveAt (s : State) (i : Nat) (g : Segment) (rel : Bool) (c : Contribution) : Except Stop (State × BitVec 16) := do
  let m := g.member s.core.strandIndex
  if rel && !s.releaseReady g.scope then await (.release g.scope)
  else if 2 ≤ m.arrivals.length || s.core.isParked then await .plain
  else
    let t ← s.whenMerged (.release g.scope) (if rel then s.releaseAt g.scope else s)
    .ok (t.setSegment i (g.arrive s.core.strandIndex s.core.num c), m.count + 1#16)

/-- SYARR (R271). -/
def State.syarr (s : State) (xd : BitVec 6) (ch : Nat) (rel : Bool) : Except Stop State := do
  let (i, g) ← s.member 0xE0#8 ch
  let (t, target) ← s.arriveAt i g rel .none
  .ok { t with core := t.core.setX xd (target.setWidth 64) }

def execSyarr (xd : BitVec 6) (index : BitVec 8) (rel : Bool) (s : State) : Host.Outcome State Fault Refusal :=
  s.finish (s.syarr xd index.toNat rel)

/-- A wait on a generation of a segment: done, timed out or neither. `done` and `late` give the state that retires. -/
def State.waitRound (s : State) (op : BitVec 8) (ch : Nat) (g : Segment) (target : BitVec 16) (done late : State) :
    Host.Outcome State Fault Refusal :=
  if reached g.gen target then .next done.retire
  else if s.core.timedOut then late.late s.core.sytrap ⟨10, 0, target.setWidth 64, syncInfo op ch⟩
  else .next s.holdTimed

/-- SYWAIT (R271). -/
def execSywait (xd xa : BitVec 6) (index : BitVec 8) (acq : Bool) (s : State) : Host.Outcome State Fault Refusal :=
  match s.member 0xE1#8 index.toNat with
  | .error e => s.finish (.error e)
  | .ok (_, g) =>
    let t := s.completeWait acq g.scope
    s.waitRound 0xE1#8 index.toNat g ((s.core.xr xa).setWidth 16)
      { t with core := t.core.setX xd 0#64 } { s with core := s.core.setX xd 1#64 }

/-- The arrival that an instruction has made and that stands since (R268, R275). -/
def State.heldArrival (s : State) (ch : Nat) : Option HeldArrival := s.core.held.find? fun h => h.pc == some s.core.pc && h.chan == ch

/-- The instruction that waits for a held arrival retires: the arrival is accounted for. -/
def State.dropHeld (s : State) (ch : Nat) : State :=
  { s with core := { s.core with held := s.core.held.filter fun h => !(h.pc == some s.core.pc && h.chan == ch) } }

/-- The held result of an arrival whose round has completed: the one that PREACK recorded, else the segment's (R265, R275). -/
def HeldArrival.resultIn (h : HeldArrival) (g : Segment) : SyResult :=
  match h.result with
  | some v => ⟨h.target, v, v⟩
  | none => g.resultOf h.target

/-- The held arrivals as PREACK records them: each with its round's result when the round has completed (R275). -/
def State.recordHeld (s : State) : List HeldArrival :=
  s.core.held.map fun h => match h.result, s.segmentAt h.chan with
    | none, some (_, g) =>
      if reached g.gen h.target then { h with result := some (if h.reduces then (g.resultOf h.target).red else (g.resultOf h.target).bcast) }
      else h
    | _, _ => h

/-- SYBAR, SYBC and SYRED (R268, R271-R273): they arrive once, and then wait for their round. `done` writes the registers of a completed
round, `late` those of a timeout. -/
def State.syRound (s : State) (op : BitVec 8) (ch : Nat) (rel acq reduces : Bool) (c : Contribution) (done : SyResult → Core → Core)
    (late : Core → Core) : Host.Outcome State Fault Refusal :=
  match s.member op ch with
  | .error e => s.finish (.error e)
  | .ok (i, g) =>
    match s.heldArrival ch with
    | some h =>
      let t := s.dropHeld ch
      let d := t.completeWait acq g.scope
      s.waitRound op ch (if h.result.isSome then { g with gen := h.target } else g) h.target
        { d with core := done (h.resultIn g) d.core } { t with core := late t.core }
    | none =>
      match s.arriveAt i g rel c with
      | .error e => s.finish (.error e)
      | .ok (t, target) =>
        .next (({ t with core := { t.core with held := t.core.held ++ [⟨some t.core.pc, ch, target, reduces, none⟩] } } : State).holdFrom
          (t.core.cycle + 1#64))

/-- SYBAR (R271). -/
def execSybar (xd : BitVec 6) (index : BitVec 8) (rel acq : Bool) (s : State) : Host.Outcome State Fault Refusal :=
  s.syRound 0xE2#8 index.toNat rel acq false .none (fun _ c => c.setX xd 0#64) (fun c => c.setX xd 1#64)

/-- SYBC (R273): under .S the member offers xa. With xd = xc the status stands (no rule says which, DESIGN CHOICE, log entry 66). -/
def execSybc (xd xa xc : BitVec 6) (index : BitVec 8) (sel : BitVec 4) (rel acq : Bool) (s : State) : Host.Outcome State Fault Refusal :=
  s.syRound 0xE3#8 index.toNat rel acq false (if sel = 1#4 then .offer (s.core.xr xa) else .none)
    (fun r c => (c.setX xd r.bcast).setX xc 0#64) (fun c => (c.setX xd 0#64).setX xc 1#64)

/-- SYRED (R272). With xd = xc the status stands, as in SYBC (DESIGN CHOICE, log entry 66). -/
def execSyred (xd xa xc : BitVec 6) (index : BitVec 8) (sel : BitVec 4) (u rel acq : Bool) (s : State) :
    Host.Outcome State Fault Refusal :=
  s.syRound 0xE4#8 index.toNat rel acq true (.value sel.toNat u (s.core.xr xa))
    (fun r c => (c.setX xd r.red).setX xc 0#64) (fun c => (c.setX xd 0#64).setX xc 1#64)

/-- SYGEN (R271). -/
def execSygen (xd : BitVec 6) (index : BitVec 8) (s : State) : Host.Outcome State Fault Refusal :=
  s.finish (do
    let (_, g) ← s.member 0xE5#8 index.toNat
    .ok { s with core := s.core.setX xd (g.gen.setWidth 64) })

/-! ### Rendezvous objects -/

/-- The object at an address, in a stash window of the strand or in the sheaf aperture. -/
def State.rendezvous (s : State) (va : Nat) : Rendezvous := Rendezvous.ofNat (ofBytes (s.peekBytes va 16))

/-- A byte of an object is written at the stash that holds it. -/
def State.putStash (s : State) (va : Nat) (b : Byte) : State :=
  match s.core.apertureAt va with
  | some (o, f) => s.writeStashOf o f b
  | none => match s.core.windowOff s.core.asid.toNat va with
    | some off => s.withStash (s.core.stash.store off b)
    | none => s

/-- One indivisible operation on an object, whose granule is filled first (R277). -/
def State.onRendezvous (s : State) (va : Nat) (f : Rendezvous → Rendezvous) : State :=
  let t := s.touchRange va 16
  ((toBytes 16 (f (t.rendezvous va)).toNat).zipIdx).foldl (fun s p => s.putStash (va + p.2) p.1) t

/-- The checks of R277, in their order; `expected` is the operand of RZINIT. -/
def State.rendezvousChecks (s : State) (op : BitVec 8) (a : Access) (xa : Word) (expected : Option Nat) : Except Stop Unit := do
  let info := syncInfo op 0
  check (xa.toNat % 16 == 0) ⟨4, 0, xa, op.setWidth 64⟩
  check (s.inStash xa.toNat) ⟨10, 2, xa, info⟩
  match expected with
  | some n => check (decide (1 ≤ n) && decide (n ≤ 65535)) ⟨10, 3, xa, info⟩
  | none => .ok ()
  match s.accessFault a xa.toNat (xa.toNat + 16) with
  | some (b, d) => trap ⟨3, d, BitVec.ofNat 64 b, op.setWidth 64⟩
  | none => .ok ()

/-- Where an object lies: its stash and the offset there (R276). -/
def State.objectAt (s : State) (va : Nat) : Nat × Nat :=
  match s.core.apertureAt va with
  | some p => p
  | none => (s.core.num, (s.core.windowOff s.core.asid.toNat va).getD 0)

/-- RZINIT or RZARR retires: its granule is filled, and its update is on its way to the object's stash, behind the older stores of
the strand (R116, R277). -/
def State.sendUpdate (s : State) (va : Nat) (init : Option Nat) : Except Stop State :=
  let r := (va, va + 16)
  if !s.storeClear r || s.core.releaseStore || s.core.isParked then await .plain
  else
    let t := s.touchRange va 16
    let (o, f) := s.objectAt va
    .ok { t with card := { t.card with rendezvous := t.card.rendezvous ++
      [⟨s.core.num, s.core.strand, o, f, va, init, s.core.drainWrites.length⟩] } }

/-- RZINIT (R277): bytes stay. -/
def State.rzinit (s : State) (xa xb : BitVec 6) : Except Stop State := do
  let n := (s.core.xr xb).toNat
  s.rendezvousChecks 0xE6#8 .store (s.core.xr xa) (some n)
  s.sendUpdate (s.core.xr xa).toNat (some n)

def execRzinit (xa xb : BitVec 6) (s : State) : Host.Outcome State Fault Refusal := s.finish (s.rzinit xa xb)

/-- RZARR (R277); under .REL after a release at its scope. -/
def State.rzarr (s : State) (xa : BitVec 6) (rel : Bool) (scope : Nat) : Except Stop State := do
  let a := (s.core.xr xa)
  s.rendezvousChecks 0xE7#8 .store a none
  if rel && !s.releaseReady scope then await (.release scope)
  else
    let t ← s.whenMerged (.release scope) (if rel then s.releaseAt scope else s)
    t.sendUpdate a.toNat none

def execRzarr (xa : BitVec 6) (rel : Bool) (scope : BitVec 2) (s : State) : Host.Outcome State Fault Refusal :=
  s.finish (s.rzarr xa rel scope.toNat)

/-- RZWAIT (R277): waits while an older store to the object has not performed, and while the phase is xb[3:0], all of it under s.sytmo
(R270); a timeout traps with the phase waited on in s.faddr. When an older store has kept it from reading at all, the phase that a timeout
writes is the one that the stash then holds (DESIGN CHOICE, log entry 66). -/
def execRzwait (xd xa xb : BitVec 6) (acq : Bool) (scope : BitVec 2) (s : State) : Host.Outcome State Fault Refusal :=
  match s.rendezvousChecks 0xE8#8 .load (s.core.xr xa) none with
  | .error e => s.finish (.error e)
  | .ok _ =>
    let clear := s.loadClear ((s.core.xr xa).toNat, (s.core.xr xa).toNat + 16)
    let t := if clear then s.readThrough.touchRange (s.core.xr xa).toNat 16 else s
    let phase := (t.rendezvous (s.core.xr xa).toNat).phase
    let old := (s.core.xr xb).toNat % 16
    if clear && decide (phase ≠ old) then
      let d := t.completeWait acq scope.toNat
      .next ({ d with core := d.core.setX xd (BitVec.ofNat 64 phase) } : State).retire
    else if s.core.timedOut then
      ({ t with core := t.core.setX xd (BitVec.ofNat 64 (phase + 256)) } : State).late s.core.sytrap
        ⟨10, 0, BitVec.ofNat 64 old, syncInfo 0xE8#8 0⟩
    else .next t.holdTimed

end Sys2Proof.Machine
end

