-- ==== Sys2Proof/Machine/System.lean ====
section
/-! DEFINITION. System instructions (R310-R324) and special registers (R23): MFS, MTS, TRAP, SYSCALL, ERET, HALT, SLEEP, CTXMARK. -/

namespace Sys2Proof.Machine

/-! ### Special registers -/

/-- A special register number by its meaning (R23). -/
inductive SReg where
  | cycle
  | coreNum
  | strand
  | lvl (n : Nat)
  | ps
  | seed
  | tvec
  | epc
  | cause
  | faddr
  | finfo
  | sytmo
  | asid
  | colour
  | dirtyT
  | dirtyA
  | dirtyW
  | scr (n : Nat)
  | shape (n : Nat)
  | quant (n : Nat)
  | copy (c f : Nat)
deriving DecidableEq, Repr

/-- The register that a number names; none for a reserved number (R23). -/
def sregOf (n : Nat) : Option SReg :=
  if n = 0x000 then some .cycle
  else if n = 0x001 then some .coreNum
  else if n = 0x002 then some .strand
  else if 0x008 ≤ n ∧ n ≤ 0x00F then some (.lvl (n - 0x008))
  else if n = 0x010 then some .ps
  else if n = 0x011 then some .seed
  else if n = 0x012 then some .tvec
  else if n = 0x013 then some .epc
  else if n = 0x014 then some .cause
  else if n = 0x015 then some .faddr
  else if n = 0x016 then some .finfo
  else if n = 0x017 then some .sytmo
  else if n = 0x020 then some .asid
  else if n = 0x021 then some .colour
  else if n = 0x022 then some .dirtyT
  else if n = 0x023 then some .dirtyA
  else if n = 0x024 then some .dirtyW
  else if 0x028 ≤ n ∧ n ≤ 0x02B then some (.scr (n - 0x028))
  else if 0x100 ≤ n ∧ n ≤ 0x107 then some (.shape (n - 0x100))
  else if 0x110 ≤ n ∧ n ≤ 0x11F then some (.quant (n - 0x110))
  else if 0x200 ≤ n ∧ n < 0x280 ∧ n % 16 ≤ 8 then some (.copy ((n - 0x200) / 16) (n % 16))
  else none

/-- Registers that no MTS writes (RO in R23, R233). -/
def SReg.readOnly : SReg → Bool
  | .cycle => true
  | .coreNum => true
  | .strand => true
  | .lvl _ => true
  | .colour => true
  | .copy _ f => f == 8
  | _ => false

/-- Registers that MTS writes in supervisor mode only (RS in R23). -/
def SReg.privileged : SReg → Bool
  | .tvec => true
  | .epc => true
  | .cause => true
  | .faddr => true
  | .finfo => true
  | .asid => true
  | .dirtyT => true
  | .dirtyA => true
  | .dirtyW => true
  | .scr _ => true
  | _ => false

/-- A shadow of a copy channel (R233). -/
def CopyChannel.shadow (c : CopyChannel) (f : Nat) : Word :=
  match f with
  | 0 => c.src
  | 1 => c.dst
  | 2 => c.rows
  | 3 => c.rowbytes
  | 4 => c.sstride
  | 5 => c.dstride
  | 6 => c.flags
  | 7 => c.rz
  | _ => c.wm

/-- A write of a shadow; zero fields ignore theirs (R233). -/
def CopyChannel.setShadow (c : CopyChannel) (f : Nat) (v : Word) : CopyChannel :=
  match f with
  | 0 => { c with src := v &&& 0xFFFFFFFFFFFFF#64 }
  | 1 => { c with dst := v &&& 0xFFFFFFFFFFFFF#64 }
  | 2 => { c with rows := v &&& 0xFFFFFF#64 }
  | 3 => { c with rowbytes := v &&& 0xFFFFFFF#64 }
  | 4 => { c with sstride := v }
  | 5 => { c with dstride := v }
  | 6 => { c with flags := v &&& 0x7#64 }
  | 7 => { c with rz := v &&& 0xFFFFFFFFFFFFF#64 }
  | _ => c

/-- Copy channel n of a core. -/
def Core.channel (c : Core) (n : Nat) : CopyChannel := c.copies.toList.getD n CopyChannel.reset

def Core.setChannel (c : Core) (n : Nat) (k : CopyChannel) : Core :=
  if h : n < 8 then { c with copies := c.copies.set n k h } else c

/-- The value of a special register, zero-extended (R322). -/
def Core.readSpecial (c : Core) (r : SReg) : Word :=
  match r with
  | .cycle => c.cycle
  | .coreNum => BitVec.ofNat 64 c.num
  | .strand => c.strand
  | .lvl n => c.lvl.toList.getD n 0#64
  | .ps => c.ps
  | .seed => c.seed
  | .tvec => c.tvec
  | .epc => c.epc
  | .cause => c.cause
  | .faddr => c.faddr
  | .finfo => c.finfo
  | .sytmo => c.sytmo
  | .asid => c.asid.setWidth 64
  | .colour => c.colour.setWidth 64
  | .dirtyT => c.dirtyT.setWidth 64
  | .dirtyA => c.dirtyA.setWidth 64
  | .dirtyW => c.dirtyW.setWidth 64
  | .scr n => c.scr.toList.getD n 0#64
  | .shape n => c.h.toList.getD n 0#64
  | .quant n => c.q.toList.getD n 0#64
  | .copy k f => (c.channel k).shadow f

/-- s.ps after an MTS (R24, R323): mode keeps; pmode is written in supervisor mode; fpflags is write-one-to-clear in user mode and takes
the written value in supervisor mode; zero fields keep 0. -/
def mtsPsValue (ps v : Word) : Word :=
  if ps.getLsbD 15 then (v &&& 0x17FFE#64) ||| 0x8000#64
  else (v &&& 0x7F06#64) ||| (ps &&& 0x10000#64) ||| (ps &&& ~~~v &&& 0xF8#64)

/-- R90 and the registers that a badger core lacks: what both MFS and MTS check. A copy shadow's channel is limited in user mode. -/
def Core.specialAccess (c : Core) (op : BitVec 8) (n : Nat) : Except Exc SReg :=
  match sregOf n with
  | some r => do
    match r with
    | .copy k _ => need (c.within k c.limits.copy) (c.illegal 3 op)
    | _ => .ok ()
    .ok r
  | none => .error (c.illegal 5 op)

/-- Class 6 detail 0x00 for s.dirty.a and s.dirty.w where there are no matrix engines (R27, R322). -/
def Core.hasMatrix (c : Core) (op : BitVec 8) (r : SReg) : Except Exc Unit :=
  need ((r != .dirtyA && r != .dirtyW) || c.kind == .compute) ⟨6, 0, 0#64, engineInfo 0 0 0 0 op⟩

/-- MFS (R322). -/
def Core.mfs (c : Core) (xd : BitVec 6) (sreg : BitVec 12) : Except Exc Core := do
  let r ← c.specialAccess 0x05#8 sreg.toNat
  c.hasMatrix 0x05#8 r
  .ok (c.setX xd (c.readSpecial r))

def execMfs (xd : BitVec 6) (sreg : BitVec 12) (s : State) : Host.Outcome State Fault Refusal := s.finishCore (s.core.mfs xd sreg)

/-- MTS to a register without a row of its own (R323). -/
def Core.writeSpecial (c : Core) (r : SReg) (v : Word) : Core :=
  match r with
  | .epc => { c with epc := v }
  | .cause => { c with cause := v &&& 0x3FF#64 }
  | .faddr => { c with faddr := v }
  | .finfo => { c with finfo := v }
  | .sytmo => { c with sytmo := v }
  | .dirtyT => { c with dirtyT := v.setWidth 32 }
  | .dirtyA => { c with dirtyA := v.setWidth 8 }
  | .dirtyW => { c with dirtyW := v.setWidth 4 }
  | .scr n => if h : n < 4 then { c with scr := c.scr.set n v h } else c
  | .quant n => if h : n < 16 then { c with q := c.q.set n v h } else c
  | .copy k f => c.setChannel k ((c.channel k).setShadow f v)
  | _ => c

/-- MTS (R323): reserved numbers and RO registers, then privilege, then the register's own rule. -/
def Core.mts (c : Core) (xa : BitVec 6) (sreg : BitVec 12) : Except Exc Core := do
  let op := 0x06#8
  let r ← c.specialAccess op sreg.toNat
  need (!r.readOnly) (c.illegal 5 op)
  need (!r.privileged || c.supervisor) (c.illegal 6 op)
  c.hasMatrix op r
  .ok (c.writeSpecial r (c.xr xa))

def execMts (xa : BitVec 6) (sreg : BitVec 12) (s : State) : Host.Outcome State Fault Refusal := s.finishCore (s.core.mts xa sreg)

/-- MTS s.seed: the SR serial restarts at 0 (R46, R323). -/
def Core.mtsSeed (c : Core) (xa : BitVec 6) : Core := { c with seed := c.xr xa, serial := 0#44 }

def execMtsSeed (xa : BitVec 6) (s : State) : Host.Outcome State Fault Refusal := s.finishCore (.ok (s.core.mtsSeed xa))

/-- A register value out of range: class 4 detail 0x02 (R21, R323). s.finfo holds the opcode (R114); the spec states no s.faddr, so it is
a free value (DESIGN CHOICE, log entry 21). -/
def rangeFault (n : Nat) : Exc := ⟨4, 2, Config.faultAddress n, 0x06#64⟩

/-- MTS s.asid: an ASID of the colour's partition, never 0 (R323, R437). -/
def State.mtsAsid (s : State) (xa : BitVec 6) : Except Stop State := do
  let v := s.core.xr xa
  check s.core.supervisor (s.core.illegal 6 0x06#8)
  let ok := s.card.partitions.any fun p =>
    p.colour == s.core.colour.toNat && decide (p.asidFirst ≤ v.toNat) && decide (v.toNat ≤ p.asidLast) && decide (0 < v.toNat)
  check ok (rangeFault s.draws)
  .ok { s with core := { s.core with asid := v.setWidth 12 } }

def execMtsAsid (xa : BitVec 6) (s : State) : Host.Outcome State Fault Refusal := s.finish (s.mtsAsid xa)

/-- MTS s.tvec: 4 KiB aligned and canonical (R323). A table of the program's own replaces the default handler table (R471). -/
def Core.mtsTvec (c : Core) (n : Nat) (xa : BitVec 6) : Except Exc Core := do
  let v := c.xr xa
  need c.supervisor (c.illegal 6 0x06#8)
  need (v.toNat % 4096 == 0 && decide (v.toNat < 2 ^ 52)) (rangeFault n)
  .ok { c with tvec := v, dfltTable := false }

def execMtsTvec (xa : BitVec 6) (s : State) : Host.Outcome State Fault Refusal := s.finishCore (s.core.mtsTvec s.draws xa)

/-- MTS s.ps (R24, R323). -/
def Core.mtsPs (c : Core) (xa : BitVec 6) : Core := { c with ps := mtsPsValue c.ps (c.xr xa) }

def execMtsPs (xa : BitVec 6) (s : State) : Host.Outcome State Fault Refusal := s.finishCore (.ok (s.core.mtsPs xa))

/-- A shape that R21 accepts; bits [63:15] are a zero field (R7). -/
def shapeOk (v : Word) : Bool :=
  let rows := (v.extractLsb' 0 7).toNat
  let rb := (v.extractLsb' 7 8).toNat
  decide (1 ≤ rows) && decide (rows ≤ 64) && decide (4 ≤ rb) && decide (rb ≤ 128) && rb % 4 == 0

/-- MTS of a shape register (R21). -/
def Core.mtsShape (c : Core) (n : Nat) (h : BitVec 3) (xa : BitVec 6) : Except Exc Core := do
  let v := c.xr xa
  need (shapeOk v) (rangeFault n)
  .ok { c with h := c.h.set h.toNat (v &&& 0x7FFF#64) }

def execMtsShape (h : BitVec 3) (xa : BitVec 6) (s : State) : Host.Outcome State Fault Refusal := s.finishCore (s.core.mtsShape s.draws h xa)

/-! ### Traps and returns -/

/-- TRAP: retires, then class 14 detail 0x00 (R318); s.finfo holds its PC and s.faddr its immediate (R313). -/
def execTrap (imm : BitVec 64) (s : State) : Host.Outcome State Fault Refusal := .next (s.enterAfter ⟨14, 0, imm, s.core.pc⟩)

/-- SYSCALL: class 14 detail 0x01 (R318). -/
def execSyscall (imm : BitVec 64) (s : State) : Host.Outcome State Fault Refusal := .next (s.enterAfter ⟨14, 1, imm, s.core.pc⟩)

/-- A privileged instruction in user mode: class 1 detail 0x06 (R70). -/
def State.privileged (s : State) (op : BitVec 8) : Except Stop Unit := check s.core.supervisor (s.core.illegal 6 op)

/-- ERET (R319). -/
def execEret (s : State) : Host.Outcome State Fault Refusal :=
  if !s.core.supervisor then .next (s.enter (s.core.illegal 6 0x04#8))
  else if !validPc s.core.epc then .next (s.enter ⟨1, 4, s.core.epc, 0x04#64⟩)
  else .next (s.returnTo s.core.epc)

/-- What HALT waits for (R320): the drain empty, older posts performed or in a side log, copies and collectives complete. -/
def State.haltReady (s : State) : Bool :=
  s.drained && s.ownUpdates.isEmpty && s.core.posts.isEmpty && (s.card.flight.all fun p => !s.mine p) && (s.card.jobs.all fun j => !s.mine j.post) &&
    s.core.unaccepted == 0 &&
    (s.core.copies.toList.all fun c => c.queue.isEmpty) && s.ownColls.isEmpty

/-- The strand ends: its dirty bytes reach their homes as a SYSTEM release writes them, and its core takes no further instruction. -/
def State.endStrand (s : State) : State :=
  let t := s.releaseAt 3
  { t with core := { t.core with run := .ended, waiting := none, waitFrom := none, fw := [], parked := .free } }

/-- HALT (R320); its end is reported by STRAND_END_REPORT. -/
def execHalt (s : State) : Host.Outcome State Fault Refusal :=
  if !s.core.supervisor then .next (s.enter (s.core.illegal 6 0x01#8))
  else if !s.haltReady then .next (s.hold .atHalt [])
  else match s.releaseHeld 3 with
    | [] => .next s.endStrand
    | lines => .next (s.hold .atHalt lines)

/-- SLEEP (R321): a message wins over the time; neither yet is a wait. -/
def State.sleep (s : State) (xd xa : BitVec 6) : Except Stop State :=
  if !s.core.inbox.isEmpty then .ok { s with core := s.core.setX xd 1#64 }
  else if (s.core.xr xa).toNat ≤ s.core.cycle.toNat then .ok { s with core := s.core.setX xd 0#64 }
  else await .plain

def execSleep (xd xa : BitVec 6) (s : State) : Host.Outcome State Fault Refusal := s.finish (s.sleep xd xa)

/-- The bits that mark state changed since a CTXMARK are cleared (R324). -/
def Core.clearDirty (c : Core) : Core :=
  { c with dirtyT := 0, dirtyA := 0, dirtyW := 0, stash := { c.stash with changed := 0 } }

/-- CTXMARK (R324). -/
def execCtxmark (s : State) : Host.Outcome State Fault Refusal :=
  s.finish (do
    s.privileged 0x08#8
    .ok { s with core := s.core.clearDirty })

end Sys2Proof.Machine
end

