-- ==== Sys2Proof/Machine/Copies.lean ====
section
/-! DEFINITION. Copy channels (R233-R244): CPYGO, CPYWAIT, CPYSTAT, CPYCANCEL, and what the copy engine does. -/

namespace Sys2Proof.Machine

/-- s.finfo of the copy engine: engine 5 (R259); the row at fault, 0 where no row applies (R130). -/
def copyInfo (op : BitVec 8) (row : Nat := 0) : Word := engineInfo (row % 64) 5 0 0 op

/-- The checks before the copy engine's own: the declared channels (R90), the engine (R27). -/
def State.needChannel (s : State) (op : BitVec 8) (n : Nat) : Except Stop Unit := do
  check (s.core.within n s.core.limits.copy) (s.core.illegal 3 op)
  raising (s.core.needEngine op 5)

/-- A channel's position: a seq relative to the channel's last retired CPYGO, in the window of R239. -/
def seqWindow (bits : Nat) (last x : Nat) : Int :=
  let m := 2 ^ bits
  let d := (x + m - last % m) % m
  if d < m / 2 then d else (d : Int) - m

/-- The seq of the last retired CPYGO of a channel; before the first one that is 2^29 − 1 (the spec names none, DESIGN CHOICE, log entry 63). -/
def CopyChannel.lastSeq (c : CopyChannel) : Nat := (c.nextSeq + 2 ^ 29 - 1) % 2 ^ 29

/-- Where a box lies (R234 check 5): in a window, in one member's part of the aperture, outside both, or none of these. -/
inductive Zone where
  | window
  | aperture (owner : Nat)
  | outside
  | mixed
deriving DecidableEq, Repr

/-- The zone of a box. -/
def State.zoneOf (s : State) (b : Nat × Nat) : Zone :=
  let ws := s.core.stash.windows.toList.filterMap id
  let meets (w : Window) : Bool := w.asid == (if shared w.va then 0 else s.core.asid.toNat) && overlap b (w.va, w.va + 2 ^ w.lg)
  match ws.find? meets with
  | some w => if w.va ≤ b.1 ∧ b.2 ≤ w.va + 2 ^ w.lg then .window else .mixed
  | none => match s.core.stash.aperture with
    | none => .outside
    | some a =>
      if !overlap b (a.base, a.base + a.members.length * 2 ^ 18) then .outside
      else if a.base ≤ b.1 ∧ b.2 ≤ a.base + a.members.length * 2 ^ 18 ∧ (b.1 - a.base) / 2 ^ 18 = (b.2 - 1 - a.base) / 2 ^ 18 then
        .aperture (a.members.getD ((b.1 - a.base) / 2 ^ 18) 0)
      else .mixed

/-- The die of a core (R17). -/
def dieOf (core : Nat) : Nat := if core < 256 then core / 128 else (core - 256) / 16

/-- The rate and the latency of the memory that a box reaches (R235); a box of several kinds of pages counts by its first byte. -/
def State.copyRate (s : State) (b : Nat × Nat) : Nat × Nat :=
  match s.zoneOf b with
  | .window => (128, 6)
  | .aperture o => (64, if dieOf o = dieOf s.core.num then 40 else 88)
  | _ => match s.homeOf s.core.asid.toNat s.core.colour.toNat b.1 with
    | some (.peer _) => (32, 900)
    | some (.host _) => (8, 1500)
    | _ => (64, 120)

/-- The snapshot that CPYGO takes (R234); the clock at which its promise expires is set when it is queued. -/
def Core.snapshot (c : Core) (k : CopyChannel) : Transfer :=
  ⟨k.nextSeq, k.src.toNat, k.dst.toNat, k.rows.toNat, k.rowbytes.toNat, k.sstride.toInt, k.dstride.toInt,
    (k.flags.extractLsb' 0 2).toNat, k.flags.getLsbD 2, k.rz.toNat, false, 0, 0, c.supervisor, c.asid.toNat⟩

/-- The first byte of a transfer's rows that fails translation or permission, with the detail and the row, in row order, a row's source
before its destination (R234 check 6, R135 order 6); then a readonly object that the destination box meets between its rows, which is in
no row (R376). -/
def State.copyFault (s : State) (t : Transfer) : Option (Nat × Nat × Nat) :=
  let inRows := (List.range t.rows).findSome? fun (m : Nat) =>
    let a : Int := t.src + (m : Int) * t.sstride
    let b : Int := t.dst + (m : Int) * t.dstride
    match s.boxFault .load a.toNat (a.toNat + t.rowbytes) with
    | some (x, d) => some (x, d, m)
    | none => (s.boxFault .store b.toNat (b.toNat + t.rowbytes)).map fun p => (p.1, p.2, m)
  match inRows with
  | some p => some p
  | none => (s.readonlyByte t.dstBox.1 t.dstBox.2).map fun b => (b, 6, 0)

/-- The checks of R234 in their order. The row field of a page fault holds the low six bits of the row (DEDUCED, log entry 33). -/
def State.copyChecks (s : State) (op : BitVec 8) (t : Transfer) : Except Stop Unit := do
  let bad : Exc := ⟨9, 2, Config.faultAddress s.draws, copyInfo op⟩
  check (decide (1 ≤ t.rows) && decide (1 ≤ t.rowbytes) && decide (t.rows * t.rowbytes ≤ 2 ^ 40)) bad
  check (decide (t.rows ≤ 1) || decide ((t.rowbytes : Int) ≤ t.dstride)) bad
  let sb := boxOf t.src t.rows t.rowbytes t.sstride
  let db := boxOf t.dst t.rows t.rowbytes t.dstride
  let out (b : Int × Int) : Bool := decide (b.1 < 0) || decide (2 ^ 52 < b.2)
  let far (b : Int × Int) : Exc := ⟨4, 1, if b.1 < 0 then 0#64 else BitVec.ofInt 64 b.1, copyInfo op⟩
  check (!out sb) (far sb)
  check (!out db) (far db)
  check (!t.rzen || (t.rz % 16 == 0 && s.inStash t.rz && decide (t.rows * t.rowbytes < 2 ^ 28))) bad
  check (s.zoneOf t.srcBox != .mixed && s.zoneOf t.dstBox != .mixed) bad
  match s.copyFault t with
  | some (b, d, m) => trap ⟨3, d, BitVec.ofNat 64 b, copyInfo op m⟩
  | none => .ok ()

/-- The clocks of s.cycle that are left of a channel's older promises (R235). -/
def Core.promiseLeft (c : Core) (k : CopyChannel) : Nat :=
  match k.queue.getLast? with
  | none => 0
  | some t => ((t.promised - c.cycle).toInt).toNat

/-- The promise of a transfer (R235). -/
def State.promise (s : State) (n : Nat) (t : Transfer) : Nat :=
  let a := s.core.promiseLeft (s.core.channel n)
  let others := (s.core.copies.toList.zipIdx.filter fun p => p.2 != n && !p.1.queue.isEmpty).length
  let r := s.copyRate t.srcBox
  let d := s.copyRate t.dstBox
  let rate := min r.1 d.1
  min (2 ^ 32 - 1) (a + (t.rows * t.rowbytes * (others + 1) + rate - 1) / rate + r.2 + d.2)

/-- What a transfer does is done under the ASID of its CPYGO (R323). -/
def State.underAsid {α : Type} (s : State) (asid : Nat) (f : State → α) : α := f { s with core := { s.core with asid := BitVec.ofNat 12 asid } }

/-- A change made under that ASID. -/
def State.onAsid (s : State) (asid : Nat) (f : State → State) : State :=
  let r := s.underAsid asid f
  { r with core := { r.core with asid := s.core.asid } }

/-- The pending bytes of a transfer's rendezvous object go up or down, and its phase completes when nothing is pending (R243, R277). -/
def State.countBytes (s : State) (t : Transfer) (d : Int) : State :=
  s.onAsid t.asid fun s =>
    if s.inStash t.rz then
      s.onRendezvous t.rz fun r => ({ r with bytes := (((r.bytes : Int) + d) % (2 ^ 28 : Nat)).toNat } : Rendezvous).settle
    else s

/-- CPYGO (R234, R235, R243). -/
def State.cpygo (s : State) (xd : BitVec 6) (n : Nat) : Except Stop State := do
  let op := 0xC7#8
  s.needChannel op n
  let k := s.core.channel n
  let t := s.core.snapshot k
  s.copyChecks op t
  if 4 ≤ k.queue.length || !s.storeClear t.dstBox || !s.copiesClear t.srcBox then await .plain
  else
    let bytes := t.rows * t.rowbytes
    check (!t.rzen || decide ((s.rendezvous t.rz).bytes + bytes ≤ 2 ^ 28 - 1)) ⟨9, 3, Config.faultAddress s.draws, copyInfo op⟩
    let p := s.promise n t
    let s := if t.rzen then s.countBytes t bytes else s
    let c := s.core.setChannel n { k with
      queue := k.queue ++ [{ t with promised := s.core.cycle + BitVec.ofNat 64 p }], nextSeq := (k.nextSeq + 1) % 2 ^ 29 }
    .ok { s with core := c.setX xd (BitVec.ofNat 64 (p * 2 ^ 32 + n * 2 ^ 29 + k.nextSeq)) }

def execCpygo (xd : BitVec 6) (index : BitVec 8) (s : State) : Host.Outcome State Fault Refusal := s.finish (s.cpygo xd index.toNat)

/-- The status of a transfer id in the order of R239: error, cancelled, done; none while it is incomplete. -/
def CopyChannel.status (c : CopyChannel) (seq : Nat) : Option Nat :=
  let w (x : Nat) : Int := seqWindow 29 c.lastSeq x
  let err := match c.error with
    | some e => decide (w e ≤ w seq)
    | none => false
  let cut := match c.cancelled with
    | some (first, n) => decide ((seq + 2 ^ 29 - first) % 2 ^ 29 < n)
    | none => false
  if err then some 2
  else if cut then some 3
  else if c.queue.all fun t => decide (w seq < w t.seq) then some 0
  else none

/-- CPYWAIT (R239): a late one traps after it under s.ps.latetrap. -/
def execCpywait (xd xa xb : BitVec 6) (s : State) : Host.Outcome State Fault Refusal :=
  let op := 0xC8#8
  let id := s.core.xr xa
  let seq := (id.extractLsb' 0 29).toNat
  let k := s.core.channel (id.extractLsb' 29 3).toNat
  match raising (s.core.needEngine op 5), k.status seq with
  | .error e, _ => s.finish (.error e)
  | .ok _, st =>
    if 0 < seqWindow 29 k.lastSeq seq then .next (s.enter ⟨9, 4, id, copyInfo op⟩)
    else match st with
      | some v => .next ({ s with core := s.core.setX xd (BitVec.ofNat 64 v) } : State).retire
      | none =>
        if (s.core.xr xb).toNat ≤ s.core.cycle.toNat then
          ({ s with core := s.core.setX xd 1#64 } : State).late s.core.latetrap ⟨9, 0, id, copyInfo op⟩
        else .next (s.hold .plain [])

/-- CPYSTAT (R241). -/
def State.cpystat (s : State) (xd : BitVec 6) (n : Nat) : Except Stop State := do
  s.needChannel 0xC9#8 n
  let k := s.core.channel n
  let seq := match k.queue with
    | t :: _ => t.seq
    | [] => k.nextSeq
  let v := n * 2 ^ 29 + seq + k.queue.length * 2 ^ 32 + (if k.error.isSome then 2 ^ 35 else 0)
  .ok { s with core := s.core.setX xd (BitVec.ofNat 64 v) }

def execCpystat (xd : BitVec 6) (index : BitVec 8) (s : State) : Host.Outcome State Fault Refusal :=
  s.finish (s.cpystat xd index.toNat)

/-- The transfers of a channel end unperformed: their objects' counts return (R243). -/
def State.uncount (s : State) (ts : List Transfer) : State :=
  ts.foldl (fun s t => if t.rzen then s.countBytes t (-((t.rows * t.rowbytes - t.moved : Nat) : Int)) else s) s

/-- CPYCANCEL (R242). -/
def State.cpycancel (s : State) (xd : BitVec 6) (n : Nat) : Except Stop State := do
  s.needChannel 0xCA#8 n
  let k := s.core.channel n
  let record := match k.queue with
    | t :: _ => some (t.seq, k.queue.length)
    | [] => k.cancelled
  let t := s.uncount k.queue
  let c := t.core.setChannel n { k with queue := [], error := none, cancelled := record }
  .ok { t with core := c.setX xd (BitVec.ofNat 64 k.queue.length) }

def execCpycancel (xd : BitVec 6) (index : BitVec 8) (s : State) : Host.Outcome State Fault Refusal :=
  s.finish (s.cpycancel xd index.toNat)

/-! ### The copy engine -/

/-- A transfer may begin (R237): it is the oldest of its channel, and no older store, post or collective that meets its boxes is
unperformed. -/
def State.copyReady (s : State) (t : Transfer) : Bool :=
  let clear (r : Nat × Nat) : Bool := (s.ownStores.all fun q => !overlap r q) && (s.ownPosts.all fun p => !overlap r p.range) &&
    s.ownColls.all fun q => !overlap r q
  !t.begun && !s.core.releaseStore && clear t.srcBox && clear t.dstBox

/-- c.wm: an address in [51:0], with [63:52] zero (R233); a hi of 2^52 reads 0 there (the spec states no value for it, DESIGN CHOICE, log
entry 68). -/
def watermark (a : Nat) : Word := BitVec.ofNat 64 (a % 2 ^ 52)

/-- The next transfer of a channel begins: the watermark starts at its lo (R238). -/
def State.beginTransfer (s : State) (n : Nat) : State :=
  let k := s.core.channel n
  match k.queue with
  | t :: rest =>
    if s.copyReady t then
      { s with core := s.core.setChannel n { k with queue := { t with begun := true } :: rest, wm := watermark t.dstBox.1 } }
    else s
  | [] => s

/-- A transfer ends in error (R240): its seq is the error record, every transfer behind it is cancelled, the counts return (R243), and the
watermark of the idle channel is again the hi of its last completed transfer (R233). -/
def State.failTransfer (s : State) (n : Nat) : State :=
  let k := s.core.channel n
  match k.queue with
  | [] => s
  | t :: _ =>
    let s := s.uncount k.queue
    { s with
      core := s.core.setChannel n { k with queue := [], error := some t.seq, wm := k.completed }
      card := { s.card with service := { s.card.service with copyErrors := s.card.service.copyErrors + 1 } } }

/-- The source, the destination and the size of a transfer's next beat, which ends at a 128-byte boundary of the destination (R236). -/
def Transfer.beat (t : Transfer) : Nat × Nat × Nat :=
  let m := t.moved / t.rowbytes
  let off := t.moved % t.rowbytes
  let a : Int := t.src + (m : Int) * t.sstride
  let b : Int := t.dst + (m : Int) * t.dstride
  let da := b.toNat + off
  (a.toNat + off, da, min (t.rowbytes - off) (128 - da % 128))

/-- Whether a beat fails (R240): a page is gone or denied, or the bridge is down for a peer page. -/
def State.beatFails (s : State) (t : Transfer) : Bool :=
  let (sa, da, k) := t.beat
  let denied (a : Access) (va : Nat) : Bool :=
    [va, va + k - 1].any fun b => (s.ownAccess a t.asid s.core.colour.toNat t.sup b).isSome ||
      (s.peerAccess a t.asid s.core.colour.toNat b).isSome
  s.underAsid t.asid fun s =>
    denied .load sa || denied .store da || (s.bridgeFault sa (sa + k)).isSome || (s.bridgeFault da (da + k)).isSome

/-- The malformed entries that the walks of a failing beat stop at are counted (R384). -/
def State.countBeat (s : State) (t : Transfer) : State :=
  let (sa, da, k) := t.beat
  let colour := s.core.colour.toNat
  let absent (a : Access) (s : State) (va : Nat) : State := match s.ownAccess a t.asid colour t.sup va with
    | some d => s.countAbsent t.asid colour 3 d va
    | none => match s.peerAccess a t.asid colour va with
      | some d => s.countAbsent t.asid colour 3 d va
      | none => s
  let pages (va : Nat) : List Nat := if va / 65536 = (va + k - 1) / 65536 then [va] else [va, va + k - 1]
  (pages da).foldl (absent .store) ((pages sa).foldl (absent .load) s)

/-- The point of a beat: the coherence point of the transfer's scope, the home for peer and host memory (R236). -/
def State.beatPoint (s : State) (t : Transfer) : Point :=
  s.underAsid t.asid fun s =>
    if s.isRemote t.asid s.core.colour.toNat t.beat.2.1 && (s.core.apertureAt t.beat.2.1).isNone then .home else s.scopePoint t.scope t.beat.2.1

/-- A beat's bytes are copied and performed at its point (R236), its object counts down (R243), and the watermark rises; the last beat
completes the transfer (R238). -/
def State.performBeat (s : State) (n : Nat) (k : CopyChannel) (t : Transfer) (rest : List Transfer) : State :=
  let (sa, da, len) := t.beat
  let p := s.beatPoint t
  let r := s.onAsid t.asid fun s => ((s.touchRange sa len).pushRange p da len).putRange p da true (s.peekBytes sa len)
  let r := if t.rzen then r.countBytes t (-(len : Int)) else r
  let t := { t with moved := t.moved + len }
  let last := decide (t.rows * t.rowbytes ≤ t.moved)
  { r with core := r.core.setChannel n { k with
      queue := if last then rest else t :: rest
      completed := if last then watermark t.dstBox.2 else k.completed
      wm := watermark (if last then t.dstBox.2 else da + len) } }

/-- The first channel from a turn on whose oldest transfer has begun (R236). -/
def Core.beatChannel (c : Core) : Option Nat :=
  ((List.range 8).map fun i => (c.copyTurn + i) % 8).find? fun n =>
    match (c.channel n).queue with
    | t :: _ => t.begun
    | [] => false

/-- One turn of the copy engine: a beat of the channel whose turn it is. -/
def State.copyBeat (s : State) : State :=
  match s.core.beatChannel with
  | none => s
  | some n =>
    let k := s.core.channel n
    match k.queue with
    | [] => s
    | t :: rest =>
      let r : State := { s with core := { s.core with copyTurn := (n + 1) % 8 } }
      if r.beatFails t then (r.countBeat t).failTransfer n
      else match r.heldBy (r.performBeat n k t rest) with
        | [] => r.performBeat n k t rest
        | lines => { s with card := { s.card with snoops := s.card.snoops ++ lines.filter fun l => !s.card.snoops.contains l } }

end Sys2Proof.Machine
end

