-- ==== Sys2Proof/Machine/Sketch.lean ====
section
/-! DEFINITION. Count sketches, group 0xB0 (R209-R230): what a sketch unit computes, and the instructions. -/

namespace Sys2Proof.Machine

/-! ### Values and keys -/

/-- DELTA (R212): the counter delta of a value, and what it does to the record. -/
def deltaOf (v : Val) (r : Record) : Int × Record :=
  match v with
  | .nan _ => (0, { r with sat := true })
  | .inf neg => (if neg then -(2 ^ 31 - 1) else 2 ^ 31 - 1, r.clamped)
  | .fin neg num den =>
    let ⟨num, den⟩ := if r.scale < 0 then (num * 2 ^ (-r.scale).toNat, den) else (num, den * 2 ^ r.scale.toNat)
    let ⟨t, cl⟩ := clampCounter (roundInt .nearest neg num den).1
    (t, if cl then r.clamped else r)

/-- The values of a SKUPD's tile, row-major (R213). -/
def Tile.sketchVals (t : Tile) : List Val := t.elems.flatten.map fun c => elemVal t.fmt c

/-- The keys of n elements: from a key base or a key tile. -/
def keysOf (keyed : Bool) (base : Word) (keys : Tile) (n : Nat) : List Int :=
  if keyed then (keys.elems.flatten.map fun c => intOf keys.fmt c).take n
  else (List.range n).map fun (j : Nat) => ((base.toNat + j : Nat) : Int)

/-- A key of the record (R213). -/
def Record.hasKey (r : Record) (k : Int) : Bool := decide (0 ≤ k) && decide (k < r.klimit)

/-- The counter updates of one SKUPD element. -/
def Record.updatesOf (r : Record) (k : Nat) (delta : Int) : List (Nat × CounterOp) :=
  (List.range r.depth).map fun i => (r.counterOf i k, .add (if hashNeg r.seedset i k then -delta else delta))

/-- Every counter of a record, with an operation made for each. -/
def Record.allCounters (r : Record) (f : Nat → CounterOp) : List (Nat × CounterOp) :=
  (List.range (2 ^ r.lgw * r.depth)).map fun j => (r.base + 4 * j, f j)

/-- A counter after an update, and whether it clamped (R213, R215, R216). -/
def State.counterResult (s : State) (asid colour va : Nat) (o : CounterOp) : Int × Bool :=
  let c := s.counter asid colour va
  match o with
  | .set v => (v, false)
  | .add d => clampCounter (c + d)
  | .addFrom src => clampCounter (c + s.counter asid colour src)
  | .mul f =>
    match (mulVal (ofInt c) (decodeFloat fp32 f.toNat)).1 with
    | .fin neg num den => clampCounter (roundInt .nearest neg num den).1
    | _ => (c, false)

/-- One counter update performs at L2 (COUNTER_APPLY); a clamp is recorded in the operation's record. -/
def State.applyCounter (s : State) (asid colour rec : Nat) (u : Nat × CounterOp) : State :=
  let ⟨v, cl⟩ := s.counterResult asid colour u.1 u.2
  let s := s.writeHomeBytes asid colour u.1 (toBytes 4 (BitVec.ofInt 32 v).toNat)
  if cl then s.putRecord asid colour rec (s.record asid colour rec).clamped else s

/-! ### Queries -/

/-- Insertion in ascending order. -/
def insertInt (x : Int) : List Int → List Int
  | [] => [x]
  | y :: ys => if x ≤ y then x :: y :: ys else y :: insertInt x ys

/-- The median of an odd number of integers (R214). -/
def medianOf (l : List Int) : Int := ((l.foldr insertInt []).drop (l.length / 2)).headD 0

/-- A value of an integer times 2^e. -/
def scaledInt (v : Int) (e : Int) : Val := dyadic (decide (v < 0)) v.natAbs e

/-- The estimate of one key as an FP32 code (R214). -/
def State.estimate (s : State) (asid colour : Nat) (r : Record) (k : Nat) : Nat :=
  let v := (List.range r.depth).map fun i =>
    let c := s.counter asid colour (r.counterOf i k)
    if hashNeg r.seedset i k then -c else c
  (roundVal fp32 .nearest false (scaledInt (medianOf v) r.scale)).code

/-! ### Instructions -/

/-- s.finfo of the post port: engine 6 (R130, R227). -/
def postInfo (role tile : Nat) (op : BitVec 8) : Word := engineInfo 0 6 role tile op

/-- The checks that every sketch instruction begins with (R227 2-4). -/
def State.sketchAddress (s : State) (op : BitVec 8) (tile : Nat) (xa : Word) (others : List Word) : Except Stop Unit := do
  raising (s.core.needEngine op 6)
  let info := postInfo 0 tile op
  check (xa.toNat % 64 == 0) ⟨4, 0, xa, info⟩
  check ((xa :: others).all fun w => decide (w.toNat < 2 ^ 52)) ⟨4, 1, xa, info⟩

/-- Value formats of SKUPD: FP32, FP16, BF16, INT32 (R213). -/
def sketchValueFmt (f : BitVec 5) : Bool := f == 2#5 || f == 3#5 || f == 4#5 || f == 10#5

/-- A source tile's record: not empty, an accepted format (R129). -/
def State.postTile (s : State) (op : BitVec 8) (role : Nat) (r : BitVec 5) (accept : BitVec 5 → Bool) : Except Stop Unit := do
  check ((s.core.tr r).rows != 0) ⟨2, 0, 0#64, postInfo role r.toNat op⟩
  check (accept (s.core.tr r).fmt) ⟨2, 1, 0#64, postInfo role r.toNat op⟩

/-- The key operand of SKUPD and SKQRY for n keys (R213). -/
def State.keyChecks (s : State) (op : BitVec 8) (tile : Nat) (keyed : Bool) (tk : BitVec 5) (xa xb : Word) (n : Nat) :
    Except Stop Unit := do
  if keyed then
    s.postTile op 4 tk fun f => f == 10#5 || f == 11#5
    check (decide (n ≤ (s.core.tr tk).rows * (s.core.tr tk).count)) ⟨2, 7, 0#64, postInfo 4 tk.toNat op⟩
  else check (decide (xb.toNat + n ≤ 2 ^ 40)) ⟨7, 6, xa, postInfo 0 tile op⟩

/-- R227 7: the record of a posting instruction does not meet a readonly object. -/
def State.recordWritable (s : State) (op : BitVec 8) (xa : Word) : Except Stop Unit :=
  match s.readonlyByte xa.toNat (xa.toNat + 64) with
  | some _ => trap ⟨3, 6, xa, postInfo 0 0 op⟩
  | none => .ok ()

/-- A sketch post enters the post queue once there is room, for its tiles in the post buffer too (R219), and no unperformed RED meets its
record (R124). -/
def State.sendSketch (s : State) (p : Post) : Except Stop State :=
  if !s.postRoom || !s.bufferRoom p.buffered || !s.storeClear p.range then await .plain else .ok (s.enqueue p)

/-- The mod bits of SKUPD and SKQRY (R81). -/
def selMod (sel : BitVec 4) : BitVec 19 := sel.setWidth 19 <<< 4

/-- SKINIT (R211). -/
def State.skinit (s : State) (xa xb xc : BitVec 6) (depth : BitVec 3) (lgw : BitVec 5) (scale : BitVec 8) (seedset : BitVec 2) :
    Except Stop State := do
  let op := 0xB0#8
  let a := s.core.xr xa
  let base := (s.core.xr xb).toNat
  let kl := (s.core.xr xc).toNat
  s.sketchAddress op 0 a []
  let bytes := 4 * 2 ^ lgw.toNat * depth.toNat
  check (geometryOk depth.toNat lgw.toNat scale.toInt seedset.toNat && decide (1 ≤ kl) && decide (kl ≤ 2 ^ 40 - 1) &&
    base % 128 == 0 && decide (base + bytes ≤ 2 ^ 52) && !overlap (base, base + bytes) (a.toNat, a.toNat + 64))
    ⟨7, 3, a, postInfo 0 0 op⟩
  s.recordWritable op a
  let geom : BitVec 32 := depth.setWidth 32 ||| lgw.setWidth 32 <<< 8 ||| scale.setWidth 32 <<< 16 ||| seedset.setWidth 32 <<< 24
  s.sendSketch (s.newPost (.skInit (s.core.xr xb) (s.core.xr xc) geom) op 0 2 a.toNat (s.core.xr xb) Tile.empty Tile.empty)

def execSkinit (xa xb xc : BitVec 6) (depth : BitVec 3) (lgw : BitVec 5) (scale : BitVec 8) (seedset : BitVec 2) (s : State) :
    Host.Outcome State Fault Refusal :=
  s.finish (s.skinit xa xb xc depth lgw scale seedset)

/-- SKZERO (R211). -/
def State.skzero (s : State) (xa : BitVec 6) : Except Stop State := do
  let op := 0xB1#8
  let a := s.core.xr xa
  s.sketchAddress op 0 a []
  s.recordWritable op a
  s.sendSketch (s.newPost .skZero op 0 2 a.toNat 0 Tile.empty Tile.empty)

def execSkzero (xa : BitVec 6) (s : State) : Host.Outcome State Fault Refusal := s.finish (s.skzero xa)

/-- SKUPD (R213). -/
def State.skupd (s : State) (xa : BitVec 6) (ta : BitVec 5) (xb : BitVec 6) (tk : BitVec 5) (sel : BitVec 4) : Except Stop State := do
  let op := 0xB2#8
  let a := s.core.xr xa
  let keyed := sel == 1#4
  raising (s.core.needTiles op (if keyed then [ta, tk] else [ta]))
  s.sketchAddress op 0 a []
  s.postTile op 1 ta sketchValueFmt
  let n := (s.core.tr ta).rows * (s.core.tr ta).count
  s.keyChecks op 0 keyed tk a (s.core.xr xb) n
  s.recordWritable op a
  s.sendSketch (s.newPost (.skUpd keyed (s.core.xr xb)) op (selMod sel) 2 a.toNat (s.core.xr xb) (s.core.tr ta)
    (if keyed then s.core.tr tk else Tile.empty))

def execSkupd (xa : BitVec 6) (ta : BitVec 5) (xb : BitVec 6) (tk : BitVec 5) (sel : BitVec 4) (s : State) :
    Host.Outcome State Fault Refusal :=
  s.finish (s.skupd xa ta xb tk sel)

/-- A query or status waits for what R221 names. -/
def State.recordClear (s : State) (va : Nat) : Except Stop Unit :=
  if !s.loadClear (va, va + 64) then await { s.loadWait (va, va + 64) with record := some va } else .ok ()

/-- The memory-side checks of a query are precise (R228): its record and its counters are readable and writable. -/
def queryFault {α : Type} (op : BitVec 8) (td : Nat) (xa : Word) (r : Except UnitFault α) : Except Stop α :=
  match r with
  | .ok a => .ok a
  | .error (cls, d, _) => trap ⟨cls, d, xa, postInfo 0 td op⟩

/-- The malformed entry at which the walk of a record's counter array stops is counted (R384). -/
def State.countArray (s : State) (a : Nat) : State :=
  let asid := s.core.asid.toNat
  let colour := s.core.colour.toNat
  match s.recordCheck .query asid colour s.core.supervisor none a with
  | .error _ => s
  | .ok r => match s.areaCheck .query asid colour s.core.supervisor r.base r.arrayBytes with
    | .error f => s.countAbsent asid colour f.1 f.2.1 f.2.2
    | .ok _ => s

/-- The end of a query of the record at an address. -/
def State.finishQuery (s : State) (a : Nat) (r : Except Stop State) : Host.Outcome State Fault Refusal :=
  match r with
  | .error (.trap x) => if x.cls = 3 then (s.countArray a).finish r else s.finish r
  | _ => s.finish r

/-- SKQRY (R214). -/
def State.skqry (s : State) (td : BitVec 5) (xa xb : BitVec 6) (tk : BitVec 5) (sel : BitVec 4) (shape : BitVec 3) :
    Except Stop State := do
  let op := 0xB3#8
  let a := s.core.xr xa
  let keyed := sel == 1#4
  let asid := s.core.asid.toNat
  let colour := s.core.colour.toNat
  let rb := s.core.hRowbytes shape
  let rows := s.core.hRows shape
  let n := rows * (rb / 4)
  raising (s.core.needTiles op (if keyed then [td, tk] else [td]))
  s.sketchAddress op td.toNat a []
  s.keyChecks op td.toNat keyed tk a (s.core.xr xb) n
  s.recordClear a.toNat
  let r ← queryFault op td.toNat a (s.recordCheck .query asid colour s.core.supervisor none a.toNat)
  queryFault op td.toNat a (s.areaCheck .query asid colour s.core.supervisor r.base r.arrayBytes)
  let keys := keysOf keyed (s.core.xr xb) (s.core.tr tk) n
  check (keys.all r.hasKey) ⟨7, 1, a, postInfo 0 td.toNat op⟩
  let es := keys.map fun k => s.estimate asid colour r k.toNat
  let oct := some (octantOf s.core.num)
  let t := keys.foldl (fun s k => (List.range r.depth).foldl (fun s i => s.unitRead oct asid colour (r.counterOf i k.toNat) 4) s)
    (s.unitRead oct asid colour a.toNat 64)
  .ok { t with core := t.core.setT td (mkTile rows rb 2#5 0#4 (chunks (rb / 4) es)) }

def execSkqry (td : BitVec 5) (xa xb : BitVec 6) (tk : BitVec 5) (sel : BitVec 4) (shape : BitVec 3) (s : State) :
    Host.Outcome State Fault Refusal :=
  s.finishQuery (s.core.xr xa).toNat (s.skqry td xa xb tk sel shape)

/-- SKADD (R215). -/
def State.skadd (s : State) (xa xb : BitVec 6) : Except Stop State := do
  let op := 0xB4#8
  let a := s.core.xr xa
  s.sketchAddress op 0 a [s.core.xr xb]
  s.recordWritable op a
  s.sendSketch (s.newPost (.skAdd (s.core.xr xb).toNat) op 0 2 a.toNat (s.core.xr xb) Tile.empty Tile.empty)

def execSkadd (xa xb : BitVec 6) (s : State) : Host.Outcome State Fault Refusal := s.finish (s.skadd xa xb)

/-- SKMUL (R216): a factor that is NaN or infinite faults at dispatch. -/
def State.skmul (s : State) (xa xb : BitVec 6) : Except Stop State := do
  let op := 0xB5#8
  let a := s.core.xr xa
  let f : BitVec 32 := (s.core.xr xb).setWidth 32
  s.sketchAddress op 0 a []
  check (match decodeFloat fp32 f.toNat with | .fin .. => true | _ => false) ⟨7, 4, a, postInfo 0 0 op⟩
  s.recordWritable op a
  s.sendSketch (s.newPost (.skMul f) op 0 2 a.toNat (s.core.xr xb) Tile.empty Tile.empty)

def execSkmul (xa xb : BitVec 6) (s : State) : Host.Outcome State Fault Refusal := s.finish (s.skmul xa xb)

/-- SKFENCE (R218): every sketch post that the strand retired before it has been applied. -/
def State.skfence (s : State) : Except Stop State := do
  raising (s.core.needEngine 0xB6#8 6)
  if s.ownPosts.any Post.isSketch then await { Wait.plain with sketches := true } else .ok s

def execSkfence (s : State) : Host.Outcome State Fault Refusal := s.finish s.skfence

/-- SKSTAT (R217): .G 0 words [191:128], .N 1 upd, .S 2 satcnt. -/
def State.skstat (s : State) (xd xa : BitVec 6) (sel : BitVec 4) : Except Stop State := do
  let op := 0xB7#8
  let a := s.core.xr xa
  let asid := s.core.asid.toNat
  let colour := s.core.colour.toNat
  s.sketchAddress op 0 a []
  s.recordClear a.toNat
  let r ← queryFault op 0 a (s.recordCheck .query asid colour s.core.supervisor none a.toNat)
  queryFault op 0 a (s.areaCheck .query asid colour s.core.supervisor r.base r.arrayBytes)
  let v : Nat := match sel.toNat with
    | 0 => r.words % 2 ^ 64
    | 1 => r.upd
    | _ => r.satcnt
  let t := s.unitRead (some (octantOf s.core.num)) asid colour a.toNat 64
  .ok { t with core := t.core.setX xd (BitVec.ofNat 64 v) }

def execSkstat (xd xa : BitVec 6) (sel : BitVec 4) (s : State) : Host.Outcome State Fault Refusal :=
  s.finishQuery (s.core.xr xa).toNat (s.skstat xd xa sel)

end Sys2Proof.Machine
end

