-- ==== Sys2Proof/Machine/Link.lean ====
section
/-! DEFINITION. Bridge collectives (R255-R257), group 0xD0: LKRED, LKSKADD, LKWAIT, LKSTAT, and what a pair computes. -/

namespace Sys2Proof.Machine

/-- The strand's dirty bytes of its windows and its cluster cache that lie in a range reach L2 (R256). -/
def State.writeBackRange (s : State) (r : Nat × Nat) : State :=
  let s := (s.core.stash.windows.toList.filterMap id).foldl (fun s w =>
    (s.core.stash.granules.map Prod.fst).foldl (fun s i =>
      let va := w.va + (i * 128 - w.off)
      if w.off ≤ i * 128 ∧ i * 128 < w.off + 2 ^ w.lg ∧ overlap r (va, va + 128) = true then s.writeBackGranule w i else s) s) s
  match clusterOf s.core.num with
  | none => s
  | some k => ((s.clusterAt k).dirtyList.filter fun p =>
      p.1 == coreInCluster s.core.num && overlap r (tagVa p.2, tagVa p.2 + 128)).foldl
        (fun s p => s.writeBackLine k s.core.colour.toNat p.2) s

/-- A collective enters the strand's link queue; its ordinal is its place among its tag's collectives (R256). -/
def State.issueCollective (s : State) (xd : BitVec 6) (g : Nat) (kind : CollKind) (addr : Nat) (ranges : List (Nat × Nat)) : State :=
  let n := s.card.tagCounts.toList.getD g 0
  let k : Collective := ⟨s.core.num, s.core.strand, s.core.asid.toNat, s.core.colour.toNat, g, s.core.linkSeq, n, kind, s.core.supervisor, addr,
    ranges, .pending⟩
  { s with
    core := ({ s.core with linkSeq := (s.core.linkSeq + 1) % 2 ^ 28 } : Core).setX xd (BitVec.ofNat 64 (g * 2 ^ 28 + s.core.linkSeq))
    card := { s.card with
      colls := s.card.colls ++ [k]
      tagCounts := if h : g < 16 then s.card.tagCounts.set g (n + 1) h else s.card.tagCounts } }

/-- A collective waits at retire as a RED of its ranges would: for older stores, REDs, collectives and transfers that meet them (R124,
R237, R255), and for an older STL (R118). -/
def State.linkClear (s : State) (rs : List (Nat × Nat)) : Bool :=
  !s.core.releaseStore && rs.all fun r => s.storeClear r && s.ownStores.all fun q => !overlap r q

/-- LKRED (R255). -/
def State.lkred (s : State) (xd xa xb : BitVec 6) (g : Nat) : Except Stop State := do
  let op := 0xD0#8
  raising (s.core.needEngine op 6)
  let a := (s.core.xr xa).toNat
  let n := (s.core.xr xb).toNat
  check (a % 128 == 0) ⟨4, 0, Config.faultAddress s.draws, postInfo 0 0 op⟩
  check (decide (1 ≤ n) && decide (n ≤ 2 ^ 26)) ⟨9, 5, Config.faultAddress s.draws, postInfo 0 0 op⟩
  let r := (a, a + 4 * n)
  if !s.linkClear [r] then await .plain
  else
    let t ← s.whenMerged .plain (s.writeBackRange r)
    .ok (t.issueCollective xd g (.red n) a [r])

def execLkred (xd xa xb : BitVec 6) (index : BitVec 8) (s : State) : Host.Outcome State Fault Refusal :=
  s.finish (s.lkred xd xa xb index.toNat)

/-- LKSKADD (R255). -/
def State.lkskadd (s : State) (xd xa : BitVec 6) (g : Nat) : Except Stop State := do
  let op := 0xD1#8
  raising (s.core.needEngine op 6)
  let a := (s.core.xr xa).toNat
  check (a % 64 == 0) ⟨4, 0, Config.faultAddress s.draws, postInfo 0 0 op⟩
  if !s.linkClear ((a, a + 64) :: (s.recordArray a).toList) then await .plain
  else .ok (s.issueCollective xd g .sketch a (s.sketchRanges a))

def execLkskadd (xd xa : BitVec 6) (index : BitVec 8) (s : State) : Host.Outcome State Fault Refusal :=
  s.finish (s.lkskadd xd xa index.toNat)

/-- The strand's collectives in the order of their issue. -/
def State.issued (s : State) : List Collective :=
  s.card.colls.filter fun k => sameStrand k.strand s.core.strand

/-- The position of a seq against the strand's last issued collective (R257); before the first one that is 2^28 − 1 (the spec names none, DESIGN
CHOICE, log entry 63). -/
def Core.linkWindow (c : Core) (seq : Nat) : Int := seqWindow 28 ((c.linkSeq + 2 ^ 28 - 1) % 2 ^ 28) seq

/-- The status of a collective and of those before it once all have completed: error or done; none while one is incomplete (R257). -/
def State.linkStatus (s : State) (seq : Nat) : Option Nat :=
  let upTo := s.issued.filter fun k => decide (s.core.linkWindow k.seq ≤ s.core.linkWindow seq)
  if upTo.all fun k => k.status == .done || k.status == .error then some (if upTo.any fun k => k.status == .error then 2 else 0)
  else none

/-- LKWAIT (R257). -/
def execLkwait (xd xa xb : BitVec 6) (s : State) : Host.Outcome State Fault Refusal :=
  let op := 0xD2#8
  let id := s.core.xr xa
  let seq := (id.extractLsb' 0 28).toNat
  match raising (s.core.needEngine op 6), s.linkStatus seq with
  | .error e, _ => s.finish (.error e)
  | .ok _, st =>
    if 0 < s.core.linkWindow seq then .next (s.enter ⟨9, 4, id, postInfo 0 0 op⟩)
    else match st with
      | some v => .next ({ s with core := s.core.setX xd (BitVec.ofNat 64 v) } : State).retire
      | none =>
        if (s.core.xr xb).toNat ≤ s.core.cycle.toNat then
          ({ s with core := s.core.setX xd 1#64 } : State).late s.core.latetrap ⟨9, 1, id, postInfo 0 0 op⟩
        else .next (s.hold .plain [])

/-- LKSTAT (R257): pending 0, done 1, error 2. -/
def State.lkstat (s : State) (xd xa : BitVec 6) : Except Stop State := do
  let op := 0xD3#8
  raising (s.core.needEngine op 6)
  let id := s.core.xr xa
  let seq := (id.extractLsb' 0 28).toNat
  check (s.core.linkWindow seq ≤ 0) ⟨9, 4, id, postInfo 0 0 op⟩
  let v : Nat := match (s.issued.find? fun k => k.seq == seq).map Collective.status with
    | some .pending => 0
    | some (.paired _) => 0
    | some .error => 2
    | _ => 1
  .ok { s with core := s.core.setX xd (BitVec.ofNat 64 v) }

def execLkstat (xd xa : BitVec 6) (s : State) : Host.Outcome State Fault Refusal := s.finish (s.lkstat xd xa)

/-! ### What a pair computes (R256) -/

/-- gw: a value rounded to BF16. -/
def gateway (x : Nat) : Val := decodeFloat bf16 (roundVal bf16 .nearest true (decodeFloat fp32 x)).code

/-- One element of LKRED: card 0's term first. -/
def linkSum (x y : Nat) : Nat := (roundVal fp32 .nearest true (addVal false (gateway x) (gateway y)).1).code

/-- The two records may be combined. -/
def Record.sameShape (a b : Record) : Bool := a.depth == b.depth && a.lgw == b.lgw && a.seedset == b.seedset && a.scale == b.scale

/-- A record after LKSKADD: sat by OR, upd and satcnt summed as SKADD combines them (R215, R256). -/
def Record.combined (a b : Record) : Record :=
  { a with sat := a.sat || b.sat, upd := (a.upd + b.upd) % 2 ^ 64, satcnt := min (a.satcnt + b.satcnt) (2 ^ 32 - 1) }

/-- The view from the peer: the cards change places. -/
def State.swap (s : State) : State := { s with card := s.peer, peer := s.card }

/-- The element codes of a buffer at its home. -/
def State.bufferOf (s : State) (k : Collective) (n : Nat) : List Nat :=
  (chunks 4 (s.homeBytes k.asid k.colour k.addr (4 * n))).map ofBytes

/-- The counters of a record's array. -/
def State.countersOf (s : State) (k : Collective) (r : Record) : List Int :=
  (List.range (2 ^ r.lgw * r.depth)).map fun j => s.counter k.asid k.colour (r.base + 4 * j)

def State.putCounters (s : State) (k : Collective) (r : Record) (vs : List Int) : State :=
  s.writeHomeBytes k.asid k.colour r.base (vs.flatMap fun v => toBytes 4 (BitVec.ofInt 32 v).toNat)

/-- The sums of two counter arrays, and how many were clamped. -/
def combineCounters (a b : List Int) : List Int × Nat :=
  let r := (a.zip b).map fun p => clampCounter (p.1 + p.2)
  (r.map Prod.fst, r.countP Prod.snd)

/-- Clamp events of a card's counters in its record (R215). -/
def Record.clampedBy (r : Record) : Nat → Record
  | 0 => r
  | n + 1 => r.clamped.clampedBy n

/-- What the reads of a collective leave in L2 (R391). -/
def State.collRead (s : State) (k : Collective) (va n : Nat) : State := s.unitRead (some (octantOf k.core)) k.asid k.colour va n

/-- A paired LKRED: what both cards write. -/
def State.reducePair (s : State) (zero : Bool) (a b : Collective) (n : Nat) : State :=
  let s := ((s.collRead a a.addr (4 * n)).swap.collRead b b.addr (4 * n)).swap
  let x := s.bufferOf a n
  let y := s.swap.bufferOf b n
  let v := (if zero then x.zip y else y.zip x).flatMap fun p => toBytes 4 (linkSum p.1 p.2)
  ((s.writeHomeBytes a.asid a.colour a.addr v).swap.writeHomeBytes b.asid b.colour b.addr v).swap

/-- A paired LKSKADD: what both cards write. -/
def State.sketchPair (s : State) (a b : Collective) (r q : Record) : State :=
  let ⟨vs, n⟩ := combineCounters (s.countersOf a r) (s.swap.countersOf b q)
  let put (s : State) (k : Collective) (r q : Record) : State :=
    (((s.collRead k k.addr 64).collRead k r.base r.arrayBytes).putCounters k r vs).putRecord k.asid k.colour k.addr ((r.combined q).clampedBy n)
  (put (put s a r q).swap b q r).swap

end Sys2Proof.Machine
end

