-- ==== Sys2Proof/Machine/Queues.lean ====
section
/-! DEFINITION. Gradient queues (R245-R251) and active messages (R252-R254), group 0xC0. -/

namespace Sys2Proof.Machine

/-! ### Gradient queues -/

/-- The instance of a queue of the strand's launch on this card (R245). -/
def State.queueAt (s : State) (q : Nat) : Option GradQueue :=
  s.card.queues.find? fun g => g.launch == s.core.launchOf && g.queue == q

def GradQueue.lane? (g : GradQueue) (l : Nat) : Option GradLane := g.lanes.find? fun x => x.lane == l

/-- A lane replaced. -/
def GradQueue.putLane (g : GradQueue) (l : GradLane) : GradQueue :=
  { g with lanes := g.lanes.map fun x => if x.lane = l.lane then l else x }

def State.putQueue (s : State) (g : GradQueue) : State :=
  { s with card := { s.card with queues := s.card.queues.map fun h => if h.launch = g.launch ∧ h.queue = g.queue then g else h } }

/-- A queue that the launch declared: class 8 detail 0x00 (R245). -/
def State.needQueue (s : State) (op : BitVec 8) (td : Nat) (q : Nat) : Except Stop GradQueue :=
  match s.queueAt q with
  | some g => .ok g
  | none => trap ⟨8, 0, Config.faultAddress s.draws, postInfo 0 td op⟩

/-- A lane of the queue's set: class 8 detail 0x01 (R245). -/
def State.needLane (s : State) (g : GradQueue) (op : BitVec 8) (td : Nat) (l : Nat) : Except Stop GradLane :=
  match g.lane? l with
  | some x => .ok x
  | none => trap ⟨8, 1, Config.faultAddress s.draws, postInfo 0 td op⟩

/-- The receiving badger core (R248): class 8 detail 0x03. Badger core j has logical number 256 + j. -/
def State.needReceiver (s : State) (op : BitVec 8) (td : Nat) (g : GradQueue) : Except Stop Unit :=
  check (s.core.num == 256 + g.badger) ⟨8, 3, Config.faultAddress s.draws, postInfo 0 td op⟩

/-- The strand's window count for a lane, if it has pushed there (R246). -/
def Core.windowCount (c : Core) (q l : Nat) : Option Nat :=
  (c.windowCounts.find? fun w => w.queue == q && w.lane == l).map WindowCount.count

/-- A window count written; a pair without one takes its place at the end. -/
def Core.setWindowCount (c : Core) (q l n : Nat) : Core :=
  { c with windowCounts :=
      if (c.windowCount q l).isSome then
        c.windowCounts.map fun w => if w.queue = q ∧ w.lane = l then { w with count := n } else w
      else c.windowCounts ++ [⟨q, l, n⟩] }

/-- What GQPUSH and MSGSEND wait for under .REL, and what the release does (R246, R252): a release at the scope, as STL does. -/
def State.releaseFirst (s : State) (rel : Bool) (scope : Nat) : Except Stop State :=
  if !rel then .ok s
  else if !s.releaseReady scope then await (.release scope)
  else s.whenMerged (.release scope) (s.releaseAt scope)

/-- The mod bits of .REL forms of group 0xC0 (R81): scope [1:0], rel [3]. -/
def relMod (rel : Bool) (scope : BitVec 2) : BitVec 19 := (if rel then 8#19 else 0#19) ||| scope.setWidth 19

/-- GQPUSH up to its retire (R246): of class 8's details 0x02 and 0x08 the first comes first (DESIGN CHOICE, log entry 76). -/
def State.gqpush (s : State) (xa : BitVec 6) (ta : BitVec 5) (q l : Nat) (rel : Bool) (scope : BitVec 2) : Except Stop State := do
  let op := 0xC0#8
  let t := s.core.tr ta
  raising (s.core.needTiles op [ta])
  raising (s.core.needEngine op 6)
  let g ← s.needQueue op 0 q
  let _ ← s.needLane g op 0 l
  check (t.rows != 0 && t.fmt == g.fmt && t.rowbytes == g.rowbytes) ⟨8, 2, Config.faultAddress s.draws, postInfo 1 ta.toNat op⟩
  check ((s.core.windowCount q l).isSome || decide (s.core.windowCounts.length < 16)) ⟨8, 8, Config.faultAddress s.draws, postInfo 0 0 op⟩
  let n := (s.core.windowCount q l).getD g.window
  let p := s.newPost (.push q l) op (relMod rel scope) scope.toNat 0 (s.core.xr xa) t Tile.empty
  if n = 0 || !s.postRoom || !s.bufferRoom p.buffered then await .plain
  else
    let r ← s.releaseFirst rel scope.toNat
    .ok (({ r with core := r.core.setWindowCount q l (n - 1) } : State).enqueue p)

def execGqpush (xa : BitVec 6) (ta : BitVec 5) (index : BitVec 8) (imm : BitVec 32) (rel : Bool) (scope : BitVec 2) (s : State) :
    Host.Outcome State Fault Refusal :=
  s.finish (s.gqpush xa ta index.toNat imm.toNat rel scope)

/-- The oldest entry leaves a lane, and its window count starts on its way back (R248). -/
def State.takeEntry (s : State) (g : GradQueue) (l : GradLane) (e : GradEntry) : State :=
  let h := ((s.card.queues.find? fun k => k.launch == g.launch && k.queue == g.queue).getD g).putLane { l with entries := l.entries.tail }
  let t := s.putQueue h
  ({ t with card := { t.card with
    returns := t.card.returns ++ [⟨e.core, e.sender, g.queue, l.lane, stopOf (256 + g.badger), t.card.packets⟩] } } : State).countPacket

/-- An acquire after the instruction has taken what it takes (R248, R254). -/
def State.acquireAfter (s : State) (acq : Bool) (scope : Nat) : State := if acq then s.acquireAt scope else s

/-- GQPOP (R248): of class 8's details 0x01 and 0x03 the first comes first (DESIGN CHOICE, log entry 76). -/
def State.gqpop (s : State) (xd : BitVec 6) (td : BitVec 5) (q l : Nat) (acq : Bool) (scope : Nat) : Except Stop State := do
  let op := 0xC1#8
  raising (s.core.needTiles op [td])
  raising (s.core.needEngine op 6)
  let g ← s.needQueue op td.toNat q
  let lane ← s.needLane g op td.toNat l
  s.needReceiver op td.toNat g
  match lane.entries with
  | [] => await .plain
  | e :: _ =>
    let t := (s.takeEntry g lane e).acquireAfter acq scope
    .ok { t with core := (t.core.setT td { e.tile with quant := 0#4 }).setX xd e.key }

def execGqpop (xd : BitVec 6) (td : BitVec 5) (index : BitVec 8) (imm : BitVec 32) (acq : Bool) (scope : BitVec 2) (s : State) :
    Host.Outcome State Fault Refusal :=
  s.finish (s.gqpop xd td index.toNat imm.toNat acq scope.toNat)

/-- The running sum of one element over the lanes after the first (R249): every addition is rounded to FP32. A queue of one lane makes no
addition: the element's bits stand, a NaN's too, and nothing is raised (R37 does not list GQPOPS, DESIGN CHOICE, log entry 67). -/
def sumLanes (a : ElemOut) (bs : List Nat) : ElemOut :=
  bs.foldl (fun acc b =>
    let s := addVal false (decodeFloat fp32 acc.1) (decodeFloat fp32 b)
    let r := roundVal fp32 .nearest false s.1
    (r.code, acc.2 ||| s.2 ||| r.flags)) a

/-- The sums of the elements of tiles of one record, in lane order (R249). -/
def sumTiles (t : Tile) (ts : List Tile) : List (List ElemOut) :=
  ((t.elems).zipIdx).map fun row => (row.1.zipIdx).map fun c =>
    sumLanes (c.1, 0#5) (ts.map fun u => ((u.elems.getD row.2 []).getD c.2 0))

/-- GQPOPS (R249): an entry of every lane in ascending lane order, or none; of class 8's details 0x03 and 0x06 the first comes first (DESIGN
CHOICE, log entry 76). -/
def State.gqpops (s : State) (xd : BitVec 6) (td : BitVec 5) (q : Nat) (acq : Bool) (scope : Nat) : Except Stop State := do
  let op := 0xC2#8
  raising (s.core.needTiles op [td])
  raising (s.core.needEngine op 6)
  let g ← s.needQueue op td.toNat q
  s.needReceiver op td.toNat g
  check (g.fmt == 2#5) ⟨8, 6, Config.faultAddress s.draws, postInfo 0 td.toNat op⟩
  match g.lanes.filterMap fun l => l.entries.head?.map fun e => (l, e) with
  | [] => await .plain
  | (l0, e0) :: rest =>
    if rest.length + 1 ≠ g.lanes.length then await .plain
    else
      check (rest.all fun p => p.2.tile.rows == e0.tile.rows && p.2.key == e0.key) ⟨8, 5, Config.faultAddress s.draws, postInfo 0 td.toNat op⟩
      let r := sumTiles e0.tile (rest.map fun p => p.2.tile)
      let c ← raising (s.core.settle op 6 td (eventsOf r))
      let t := (((l0, e0) :: rest).foldl (fun s p => s.takeEntry g p.1 p.2) ({ s with core := c } : State)).acquireAfter acq scope
      .ok { t with core := (t.core.setT td (mkTile e0.tile.rows e0.tile.rowbytes 2#5 0#4 (codesOf r))).setX xd e0.key }

def execGqpops (xd : BitVec 6) (td : BitVec 5) (index : BitVec 8) (acq : Bool) (scope : BitVec 2) (s : State) :
    Host.Outcome State Fault Refusal :=
  s.finish (s.gqpops xd td index.toNat acq scope.toNat)

/-- GQSTAT (R250): .W 0 the window count, .N 1 the entries held. -/
def State.gqstat (s : State) (xd : BitVec 6) (q l : Nat) (sel : BitVec 4) : Except Stop State := do
  let op := 0xC3#8
  raising (s.core.needEngine op 6)
  let g ← s.needQueue op 0 q
  let lane ← s.needLane g op 0 l
  if sel = 1#4 then s.needReceiver op 0 g else .ok ()
  let v := if sel = 1#4 then lane.entries.length else (s.core.windowCount q l).getD g.window
  .ok { s with core := s.core.setX xd (BitVec.ofNat 64 v) }

def execGqstat (xd : BitVec 6) (index : BitVec 8) (imm : BitVec 32) (sel : BitVec 4) (s : State) : Host.Outcome State Fault Refusal :=
  s.finish (s.gqstat xd index.toNat imm.toNat sel)

/-! ### Messages -/

/-- The payload of a message: bytes 0 to 47 of row 0 (R252). -/
def Tile.payload (t : Tile) : List Byte := (t.data.headD []).take 48

/-- A tile that holds a message's payload (R254): 1 row of 48 bytes, RAW, quant 0. -/
def payloadTile (bs : List Byte) : Tile := ⟨1, 48, 0#5, 0#4, [bs]⟩

/-- MSGSEND up to its retire (R252). -/
def State.msgsend (s : State) (xa xb : BitVec 6) (ta : BitVec 5) (rel : Bool) (scope : BitVec 2) : Except Stop State := do
  let op := 0xC4#8
  let t := s.core.tr ta
  let target := s.core.xr xb
  raising (s.core.needTiles op [ta])
  raising (s.core.needEngine op 6)
  check (target.extractLsb' 48 16 == 0#16) ⟨8, 7, Config.faultAddress s.draws, postInfo 0 0 op⟩
  check (t.rows != 0 && decide (48 ≤ t.rowbytes)) ⟨8, 7, Config.faultAddress s.draws, postInfo 1 ta.toNat op⟩
  if 8 ≤ s.core.unaccepted || !s.postRoom then await .plain
  else
    let r ← s.releaseFirst rel scope.toNat
    let p := s.newPost (.message target) op (relMod rel scope) scope.toNat 0 (s.core.xr xa) (payloadTile t.payload) Tile.empty
    .ok (({ r with core := { r.core with unaccepted := r.core.unaccepted + 1 } } : State).enqueue p)

def execMsgsend (xa xb : BitVec 6) (ta : BitVec 5) (rel : Bool) (scope : BitVec 2) (s : State) : Host.Outcome State Fault Refusal :=
  s.finish (s.msgsend xa xb ta rel scope)

/-- MSGWAIT (R254). -/
def State.msgwait (s : State) (xd : BitVec 6) : Except Stop State := do
  raising (s.core.needEngine 0xC5#8 6)
  if s.core.inbox.isEmpty then await .plain
  else .ok { s with core := s.core.setX xd (BitVec.ofNat 64 s.core.inbox.length) }

def execMsgwait (xd : BitVec 6) (s : State) : Host.Outcome State Fault Refusal := s.finish (s.msgwait xd)

/-- MSGRECV (R254). -/
def State.msgrecv (s : State) (xd : BitVec 6) (td : BitVec 5) (acq : Bool) (scope : Nat) : Except Stop State := do
  let op := 0xC6#8
  raising (s.core.needTiles op [td])
  raising (s.core.needEngine op 6)
  match s.core.inbox with
  | [] => await .plain
  | m :: rest =>
    let t := ({ s with core := { s.core with inbox := rest } } : State).acquireAfter acq scope
    .ok { t with core := (t.core.setT td (payloadTile m.payload)).setX xd m.handler }

def execMsgrecv (xd : BitVec 6) (td : BitVec 5) (acq : Bool) (scope : BitVec 2) (s : State) : Host.Outcome State Fault Refusal :=
  s.finish (s.msgrecv xd td acq scope.toNat)

end Sys2Proof.Machine
end

