-- ==== Sys2Proof/Machine/Preempt.lean ====
section
/-! DEFINITION. Context images (R423, R424), PREACK (R325), the restoring that the dispatcher does (R425), and what the firmware's default
handler table does (R471). -/

namespace Sys2Proof.Machine

/-- A word of a launch record (R392). -/
def Launch.word (l : Launch) (i : Nat) : Nat := (l.record.getD i 0#64).toNat

/-- The image area of a launch (R392). -/
def Launch.img (l : Launch) : Nat := l.word 6

/-- A field of the control word: bit and width; the launch's ASID and its colour (R393). -/
def Launch.ctl (l : Launch) (lo n : Nat) : Nat := l.word 20 / 2 ^ lo % 2 ^ n
def Launch.asid (l : Launch) : Nat := l.ctl 41 12
def Launch.colour (l : Launch) : Nat := l.ctl 10 4

/-- The ASID of the launch of the strand in focus, whose image area lies in it (R392). -/
def State.imageAsid (s : State) : Nat :=
  ((s.card.launches.find? fun l => l.id == s.core.launchOf).map Launch.asid).getD s.core.asid.toNat

/-- Bytes of an image are written at their home, for the launch's ASID and the strand's colour. -/
def State.putImage (s : State) (va : Nat) (bs : List Byte) : State :=
  s.writeHomeBytes s.imageAsid s.core.colour.toNat va bs

def State.getImage (s : State) (va n : Nat) : List Byte := s.homeBytes s.imageAsid s.core.colour.toNat va n

def State.imageWord (s : State) (va : Nat) : Nat := ofBytes (s.getImage va 8)

/-! ### The PREACK area -/

/-- A window count of the image (R424), in a 16-byte entry. -/
def WindowCount.entry (w : WindowCount) : List Byte := toBytes 16 (w.queue + w.lane * 2 ^ 8 + w.count * 2 ^ 16 + 2 ^ 31)

def windowCountOf (v : Nat) : Option WindowCount :=
  if v.testBit 31 then some ⟨v % 2 ^ 5, v / 2 ^ 8 % 2 ^ 5, v / 2 ^ 16 % 2 ^ 7⟩ else none

/-- A held contribution of the image: channel [7:0], status [15:8] (bit 0 in use, bit 1 for a reduction, bit 2 with its result), target
[31:16], result [127:64]. The spec gives the contents and not their places (DESIGN CHOICE, log entry 23). -/
def HeldArrival.entry (h : HeldArrival) : List Byte :=
  toBytes 16 (h.chan + (1 + (if h.reduces then 2 else 0) + (if h.result.isSome then 4 else 0)) * 2 ^ 8 + h.target.toNat * 2 ^ 16 +
    (h.result.getD 0#64).toNat * 2 ^ 64)

def heldOf (v : Nat) : Option HeldArrival :=
  if v.testBit 8 then
    some ⟨none, v % 2 ^ 8, BitVec.ofNat 16 (v / 2 ^ 16), v.testBit 9, if v.testBit 10 then some (BitVec.ofNat 64 (v / 2 ^ 64)) else none⟩
  else none

/-- The 64 bytes of a message (R252): handler, target, payload. -/
def Message.bytes (m : Message) : List Byte := wordBytes m.handler.toNat ++ wordBytes m.target.toNat ++ m.payload

def messageOf (bs : List Byte) : Message :=
  ⟨0, BitVec.ofNat 64 (ofBytes ((bs.drop 8).take 8)), BitVec.ofNat 64 (ofBytes (bs.take 8)), (bs.drop 16).take 48⟩

/-- Pads a table of an area to its length. -/
def padBytes (n : Nat) (bs : List Byte) : List Byte := bs.take n ++ List.replicate (n - bs.length) 0#8

/-- The PREACK area (R424) of a core, for the nth image. -/
def Core.preackArea (c : Core) (n : Nat) : List (Nat × List Byte) :=
  [(0x000, wordBytes (1 + n * 2 ^ 32)),
   (0x008, wordBytes c.serial.toNat),
   (0x010, wordBytes c.seed.toNat),
   (0x018, toBytes 256 c.stash.changed.toNat),
   (0x118, wordBytes c.cycle.toNat),
   (0x120, padBytes 256 (c.windowCounts.flatMap WindowCount.entry)),
   (0x220, c.copies.toList.flatMap fun k => wordBytes k.nextSeq),
   (0x260, (List.replicate 16 (wordBytes c.linkSeq)).flatten),
   (0x300, padBytes 2048 (c.held.flatMap HeldArrival.entry)),
   (0xB00, padBytes 1024 (c.inbox.flatMap Message.bytes)),
   (0xF40, wordBytes c.inbox.length)]

/-- The granules that a map marks. -/
def marked (m : BitVec 2048) : List Nat := (List.range 2048).filter fun g => m.getLsbD g

/-- The granules that the changed-granule map marks go to the stash region, and the map to its place (R325, R421). -/
def State.writeGranules (s : State) (img : Nat) : State :=
  (marked s.core.stash.changed).foldl (fun s g => s.putImage (img + 0x4000 + 128 * g) (readBytes s.core.stash.bytes (128 * g) 128)) s

/-- The map of an image takes further granules. -/
def State.mergeMap (s : State) (img : Nat) : State :=
  s.putImage (img + 0x018) (toBytes 256 (ofBytes (s.getImage (img + 0x018) 256) ||| s.core.stash.changed.toNat))

/-- A strand of a launch takes a change. -/
def Card.mapStrand (k : Card) (launch : BitVec 16) (index : Nat) (f : StrandInfo → StrandInfo) : Card :=
  { k with launches := k.launches.map fun l =>
      if l.id = launch then { l with strands := l.strands.map fun i => if i.index = index then f i else i } else l }

/-- The firmware's record of a strand. -/
def Card.strandInfo (k : Card) (launch : BitVec 16) (index : Nat) : Option StrandInfo :=
  (k.launches.find? fun l => l.id == launch).bind fun l => l.strands.find? fun i => i.index == index

/-- The image is written, the dirty bits are cleared, the firmware is told, and the strand stops (R325). Causes still held by the core are
kept with the strand's context (R335), and so is what the front end may not use before an IFENCE (R298, R340). -/
def State.acknowledge (s : State) (img : Nat) : State :=
  let n := ((s.card.strandInfo s.core.launchOf s.core.strandIndex).map StrandInfo.images).getD 0 + 1
  let s : State := { s with core := { s.core with held := s.recordHeld } }
  let t := ((s.core.preackArea n).foldl (fun s p => s.putImage (img + p.1) p.2) s).writeGranules img
  { t with
    core := { t.core.clearDirty with run := .stopped, waiting := none, waitFrom := none, fw := [], parked := .free, imageAddr := none,
                                      reports := [], machineChecks := [] }
    card := t.card.mapStrand s.core.launchOf s.core.strandIndex fun i =>
      { i with images := n, stopped := true, kept := i.kept ++ s.core.machineChecks ++ s.core.reports, code := s.core.codeView } }

/-- PREACK (R325). -/
def execPreack (xa : BitVec 6) (s : State) : Host.Outcome State Fault Refusal :=
  let img := s.core.xr xa
  if !s.core.supervisor then .next (s.enter (s.core.illegal 6 0x0A#8))
  else if s.core.imageAddr ≠ some img then .next (s.enter ⟨13, 2, img, 0x0A#64⟩)
  else if !s.drained then .next (s.hold .plain [])
  else .next (s.acknowledge img.toNat)

/-! ### The default handler's regions (R471) -/

/-- The special registers that the default handler saves, in the order of their words. -/
def savedSpecials : List SReg :=
  [.ps, .tvec, .epc, .sytmo, .asid, .dirtyT, .dirtyA, .dirtyW, .scr 0, .scr 1, .scr 2, .scr 3]

/-- The words of the record of the vector that a pre-emption at its HALT interrupted: 0 for none (R421, R471). -/
def Core.interrupted (c : Core) : List Word :=
  match c.fw with
  | _ :: x :: _ => [causeWord x, x.faddr, x.finfo]
  | _ => [0#64, 0#64, 0#64]

/-- The words of the scalar region: x0 to x63, h0 to h7, q0 to q15, the special registers, the copy shadows, the tile and pin records, the
record of an interrupted vector. The region belongs to the handler; this is the model's layout (DESIGN CHOICE, log entry 24). -/
def Core.savedWords (c : Core) : List Word :=
  c.x.toList ++ c.h.toList ++ c.q.toList ++ savedSpecials.map c.readSpecial ++
    ((List.range 8).flatMap fun n => (List.range 8).map fun f => (c.channel n).shadow f) ++ c.t.toList.map Tile.record ++
    (c.w.toList.map fun p => p.tile.record) ++ c.interrupted

/-- The 8192 bytes of a tile's place: rows of rowbytes, one after another. -/
def Tile.bytes (t : Tile) : List Byte := t.data.flatten

/-- The bytes of an accumulator: four MDRAIN.FA48 blocks of 64 rows of 16 codes in 8 bytes each, with col0 = 0, 16, 32 and 48 (R170, R423). -/
def accBytes (a : Acc) : List Byte :=
  (List.range 4).flatMap fun b => a.flatMap fun row => ((row.drop (16 * b)).take 16).flatMap fun c => toBytes 8 c.toNat

/-- An accumulator from those bytes. -/
def accOf (bs : List Byte) : Acc :=
  let codes := (chunks 8 bs).map fun b => BitVec.ofNat 48 (ofBytes b)
  (List.range 64).map fun i => (List.range 4).flatMap fun b => (codes.drop (1024 * b + 16 * i)).take 16

/-- The default handler stores the registers that the dirty bits mark (R423). -/
def State.saveRegisters (s : State) (img : Nat) : State :=
  let c := s.core
  let s := s.putImage (img + 0x2000) (c.savedWords.flatMap fun w => wordBytes w.toNat)
  let s := ((c.t.toList.zipIdx).filter fun p => c.dirtyT.getLsbD p.2).foldl
    (fun s p => s.putImage (img + 0x44000 + 8192 * p.2) p.1.bytes) s
  let s := ((c.a.toList.zipIdx).filter fun p => c.dirtyA.getLsbD p.2).foldl
    (fun s p => s.putImage (img + 0x84000 + 32768 * p.2) (accBytes p.1)) s
  ((c.w.toList.zipIdx).filter fun p => c.dirtyW.getLsbD p.2).foldl
    (fun s p => (s.putImage (img + 0xC4000 + 8192 * p.2) p.1.tile.bytes).putImage (img + 0xCC000 + 512 * p.2) p.1.scales.bytes) s

/-- A record word as a tile without bytes (R126). -/
def recordFields (v : Nat) : Nat × Nat × BitVec 5 × BitVec 4 :=
  (v % 2 ^ 7, v / 2 ^ 7 % 2 ^ 8, BitVec.ofNat 5 (v / 2 ^ 15), BitVec.ofNat 4 (v / 2 ^ 20))

/-- A tile of an image from its record and its bytes. -/
def State.imageTile (s : State) (va : Nat) (record : Nat) : Tile :=
  let (rows, rb, fmt, q) := recordFields record
  ⟨rows, rb, fmt, q, chunks rb (s.getImage va (rows * rb))⟩

/-- A special register takes its saved value; s.ps with mode 1 and the pmode of the entry that saved it, 0 unless that was taken at a HALT. -/
def Core.restoreSpecial (c : Core) (r : SReg) (v : Word) : Core :=
  match r with
  | .ps => { c with ps := (v &&& 0x17FFE#64) ||| 0x8000#64 }
  | .tvec => { c with tvec := v }
  | .asid => { c with asid := v.setWidth 12 }
  | r => c.writeSpecial r v

/-- The default handler reloads what it saved (R328, R471). -/
def State.restoreRegisters (s : State) (img : Nat) : State :=
  let w (i : Nat) : Word := BitVec.ofNat 64 (s.imageWord (img + 0x2000 + 8 * i))
  let ws (i n : Nat) : List Word := (List.range n).map fun j => w (i + j)
  let c := s.core
  let c := ((ws 0 64).zipIdx).foldl (fun c p => c.setX (BitVec.ofNat 6 p.2) p.1) c
  let c := { c with h := Vector.ofFn fun i => w (64 + i.val) &&& 0x7FFF#64, q := Vector.ofFn fun i => w (72 + i.val) }
  let c := (((ws 88 12).zip savedSpecials)).foldl (fun c p => c.restoreSpecial p.2 p.1) c
  let c := (List.range 64).foldl (fun c j => c.setChannel (j / 8) ((c.channel (j / 8)).setShadow (j % 8) (w (100 + j)))) c
  let c := (List.range 32).foldl (fun c n => if c.dirtyT.getLsbD n then
    c.setT (BitVec.ofNat 5 n) (s.imageTile (img + 0x44000 + 8192 * n) (w (164 + n)).toNat) else c) c
  let c := (List.range 8).foldl (fun c n => if c.dirtyA.getLsbD n then
    c.setA (BitVec.ofNat 3 n) (accOf (s.getImage (img + 0x84000 + 32768 * n) 32768)) else c) c
  let c := (List.range 4).foldl (fun c n => if c.dirtyW.getLsbD n then
    let r := (w (196 + n)).toNat
    let t := s.imageTile (img + 0xC4000 + 8192 * n) r
    let k := (c.wr (BitVec.ofNat 2 n)).scales
    c.setW (BitVec.ofNat 2 n) ⟨t, if t.fmt = 7#5 then ⟨t.rows, t.rowbytes / 16, 14#5, 0#4, chunks (t.rowbytes / 16) (s.getImage (img + 0xCC000 + 512 * n) (t.rows * (t.rowbytes / 16)))⟩ else k⟩ else c) c
  let cause := (w 200).toNat
  { s with core := { c with fw := c.fw ++ if cause = 0 then [] else [⟨cause / 64, cause % 64, w 201, w 202⟩] } }

/-- The parts that PREACK wrote are restored (R425): seed and serial, window counts, sequence numbers, held contributions, inbox, and the
stash granules that the image's map marks, with the map. -/
def State.restoreArea (s : State) (img : Nat) : State :=
  let map : BitVec 2048 := BitVec.ofNat 2048 (ofBytes (s.getImage (img + 0x018) 256))
  let stash := (marked map).foldl (fun (t : Stash) g =>
    ((s.getImage (img + 0x4000 + 128 * g) 128).zipIdx).foldl (fun t p => t.write (128 * g + p.2) p.1) t) s.core.stash
  let entries (off n : Nat) : List Nat := (List.range n).map fun i => ofBytes (s.getImage (img + off + 16 * i) 16)
  let seqs (c : Core) : Core := (List.range 8).foldl (fun c n =>
    c.setChannel n { c.channel n with nextSeq := s.imageWord (img + 0x220 + 8 * n) % 2 ^ 29 }) c
  { s with core := seqs { s.core with
      stash := { stash with changed := map }
      serial := BitVec.ofNat 44 (s.imageWord (img + 0x008))
      seed := BitVec.ofNat 64 (s.imageWord (img + 0x010))
      windowCounts := (entries 0x120 16).filterMap windowCountOf
      linkSeq := s.imageWord (img + 0x260) % 2 ^ 28
      held := (entries 0x300 128).filterMap heldOf
      inbox := (List.range (s.imageWord (img + 0xF40) % 17)).map fun i => messageOf (s.getImage (img + 0xB00 + 64 * i) 64) } }

/-! ### The default handler table -/

/-- The cause that a strand's end leaves with its launch, at a clock: mcidx and mccause of the first one (R417, R471). -/
def Launch.noteCause (l : Launch) (index cause clock : Nat) : Launch :=
  { l with cause := if l.cause.isNone then some (index, cause, clock) else l.cause }

def Card.mapLaunch (k : Card) (id : BitVec 16) (f : Launch → Launch) : Card :=
  { k with launches := k.launches.map fun l => if l.id = id then f l else l }

/-- The handler's HALT: it waits as HALT does, then the strand ends; a cause other than SYSCALL 0 is recorded with its launch, whose
status becomes at least 9 (R417, R471). -/
def State.firmwareHalt (s : State) (x : Exc) : State :=
  if !s.haltReady then s.hold .atHalt []
  else match s.releaseHeld 3 with
    | [] =>
      let t := s.endStrand
      if x.cls = 14 ∧ x.detail = 1 ∧ x.faddr = 0#64 then t
      else { t with card := t.card.mapLaunch s.core.launchOf fun l =>
        { l.noteCause s.core.strandIndex (causeWord x).toNat s.card.clocks[0] with status := max l.status 9 } }
    | lines => s.hold .atHalt lines

/-- What a vector of the default handler table does (R471). A class-13 detail-0x00 entry saves the registers and then executes PREACK,
which waits for the store drain. -/
def State.firmware (s : State) (x : Exc) : State :=
  if x.cls = 12 ∧ x.detail % 16 = 3 then s.returnTo s.core.epc
  else if x.cls = 13 ∧ x.detail = 0 then
    if !s.drained then s.hold .plain [] else (s.saveRegisters x.faddr.toNat).acknowledge x.faddr.toNat
  else if x.cls = 13 ∧ x.detail = 1 then
    let t := s.restoreRegisters x.faddr.toNat
    t.returnTo t.core.epc
  else s.firmwareHalt x

end Sys2Proof.Machine
end

