-- ==== Sys2Proof/Machine/Units.lean ====
section
/-! DEFINITION. What the events share: the view of another core or of a post's sender, BISnp, the event ring (R438), machine checks (R330),
side logs (R332-R338). -/

namespace Sys2Proof.Machine

/-! ### Views -/

/-- The machine seen from core n of the card. -/
def State.focus (s : State) (n : Nat) : State :=
  if s.core.num = n then s
  else match s.card.cores.find? fun c => c.num == n with
    | none => s
    | some c => { s with core := c, card := { s.card with cores := s.card.cores.map fun d => if d.num = n then s.core else d } }

/-- A change made from the view of core n. -/
def State.onCore (s : State) (n : Nat) (f : State → State) : State := (f (s.focus n)).focus s.core.num

/-- The cards change places, each with its cores; the focus is then a core of the other card. -/
def State.flip (s : State) : State :=
  match s.peer.cores with
  | [] => s
  | c :: rest => { s with core := c, card := { s.peer with cores := rest }, peer := { s.card with cores := s.core :: s.card.cores } }

/-- A change made on the peer card. -/
def State.onPeer (s : State) (f : State → State) : State := (f s.flip).flip

/-- The machine seen from a post's sender, under the ASID of the post. -/
def State.senderView (s : State) (p : Post) : State :=
  let t := s.focus p.core
  { t with core := { t.core with asid := BitVec.ofNat 12 p.asid } }

/-- A change made from that view. -/
def State.onSender (s : State) (p : Post) (f : State → State) : State :=
  let t := f (s.senderView p)
  ({ t with core := { t.core with asid := (s.focus p.core).core.asid } } : State).focus s.core.num

/-- BISnp goes out for lines that the host may hold (R434). -/
def State.snoop (s : State) (lines : List Nat) : State :=
  { s with card := { s.card with snoops := s.card.snoops ++ lines.filter fun l => !s.card.snoops.contains l } }

/-- The lines of a local range that the host may hold. -/
def State.heldLines (s : State) (asid colour va n : Nat) : List Nat :=
  if s.card.hostLines.isEmpty then []
  else ((List.range ((va + n + 127) / 128 - va / 128)).map fun i => tagOf asid ((va / 128 + i) * 128)).filter fun t =>
    s.card.hostLines.contains t && !s.isRemote asid colour (tagVa t)

/-! ### Strands -/

/-- The fields of a strand word (R25). -/
def strandIncarnation (w : Word) : BitVec 16 := w.extractLsb' 16 16
def strandIndexOf (w : Word) : Nat := (w.extractLsb' 0 16).toNat

/-- The core of the card on which a strand runs, parked or not, whatever its incarnation. -/
def State.coreOf (s : State) (strand : Word) : Option Core :=
  (s.core :: s.card.cores).find? fun c => c.run == .running && sameStrand c.strand strand

/-- Class 15 goes to a strand, or, when it is not placed, its cause into its launch's completion record (R330). -/
def State.sendMachineCheck (s : State) (strand : Word) (x : Exc) : State :=
  match s.coreOf strand with
  | some c => s.setCore { c with machineChecks := c.machineChecks ++ [x] }
  | none =>
    let note (l : Launch) : Launch := l.noteCause (strandIndexOf strand) (causeWord x).toNat s.card.clocks[0]
    { s with card := s.card.mapLaunch (strandLaunch strand) note }

/-- Data or log entries of a strand are lost: class 15, and its launch's status is at least 6 (R330, R417). -/
def State.reportLoss (s : State) (strand : Word) (x : Exc) : State :=
  let t := s.sendMachineCheck strand x
  { t with card := t.card.mapLaunch (strandLaunch strand) fun l => { l with status := max l.status 6 } }

/-! ### Side logs -/

/-- A log of the card, with the empty log for one not used yet. -/
def Card.sideLog (k : Card) (ctrl colour : Nat) : SideLog :=
  (k.sideLogs.find? fun l => l.ctrl == ctrl && l.colour == colour).getD ⟨ctrl, colour, 0, 0, [], false, false, false⟩

def Card.putSideLog (k : Card) (l : SideLog) : Card :=
  { k with sideLogs :=
      if k.sideLogs.any fun m => m.ctrl == l.ctrl && m.colour == l.colour then
        k.sideLogs.map fun m => if m.ctrl = l.ctrl ∧ m.colour = l.colour then l else m
      else k.sideLogs ++ [l] }

/-- The payload of an entry: the tiles of a SKUPD or of a push (R333), padded to 64 bytes each. -/
def Post.logPayload (p : Post) : List Byte :=
  let pad (bs : List Byte) : List Byte := bs ++ List.replicate ((64 - bs.length % 64) % 64) 0#8
  pad p.values.bytes ++ pad p.keys.bytes

def LogState.code : LogState → Nat
  | .pending => 1
  | .applied => 2
  | .discarded => 3

/-- An entry's header (R333). -/
def LogEntry.header (e : LogEntry) : Nat :=
  e.state.code + e.seq % 2 ^ 32 * 2 ^ 128 + e.post.core * 2 ^ 160 + e.cause * 2 ^ 186 + e.post.mod.toNat * 2 ^ 196 +
    e.post.opcode.toNat * 2 ^ 216 + e.post.colour * 2 ^ 224 + e.post.asid * 2 ^ 228 + strandIndexOf e.post.strand * 2 ^ 240 +
    (strandIncarnation e.post.strand).toNat * 2 ^ 256 + (strandLaunch e.post.strand).toNat * 2 ^ 272 +
    e.post.logPayload.length * 2 ^ 288 + e.post.oper.toNat * 2 ^ 320 + e.post.addr * 2 ^ 384 + e.faddr.toNat * 2 ^ 448

/-- Bytes that a controller writes at L2 under a tag. -/
def Card.mergeBytes (k : Card) (tag : Nat) (bs : List Byte) : Card := (bs.zipIdx).foldl (fun k p => k.mergeByte (tag + p.2) p.1) k

/-- A log as software reads it: head and tail, and one entry's header (R333). -/
def Card.mirrorLog (k : Card) (l : SideLog) (e : LogEntry) : Card :=
  let va := sideLogVa l.ctrl l.colour
  (k.mergeBytes va (wordBytes l.head ++ wordBytes l.tail)).mergeBytes (va + e.off) (toBytes 64 e.header)

/-- The kind of a deferred fault (R335). -/
def Post.deferredKind (p : Post) : Nat :=
  match p.kind with
  | .red .. => 0
  | .push .. => 2
  | _ => 1

/-- The class-12 record of an entry (R313, R335). -/
def LogEntry.report (e : LogEntry) (l : SideLog) : Exc :=
  ⟨12, e.post.deferredKind * 16 + e.cause / 64 % 16, BitVec.ofNat 64 (sideLogVa l.ctrl l.colour + e.off),
    BitVec.ofNat 64 (l.ctrl * 2 ^ 32 + e.seq % 2 ^ 32)⟩

/-- A report leaves for the issuing core and for the driver (R335). -/
def State.sendReport (s : State) (l : SideLog) (e : LogEntry) : State :=
  let x := e.report l
  let s := s.pushEvent (l.colour + 1) 1 l.colour (strandLaunch e.post.strand).toNat x
  ({ s with card := { s.card with reports := s.card.reports ++ [⟨e.post.core, e.post.strand, x, s.card.packets⟩] } } : State).countPacket

/-- Where a log's next entry goes: behind its last unresolved one, else at its start. -/
def SideLog.nextOff (l : SideLog) : Nat :=
  if l.head = l.tail then 128
  else match l.entries.getLast? with
    | some e => e.off + 64 + e.post.logPayload.length
    | none => 128

/-- Whether a strand has a pending entry in a log (R334). -/
def Card.hasPending (k : Card) (ctrl : Nat) (p : Post) : Bool :=
  (k.sideLog ctrl p.colour).entries.any fun e => e.state == .pending && sameStrand e.post.strand p.strand

/-- A controller whose log is full holds every further operation of the partition (R332). -/
def Card.logFull (k : Card) (ctrl : Nat) (p : Post) : Bool := (k.sideLog ctrl p.colour).full

/-- A post enters a side log (R332): a log without room becomes full and holds it, and the strand is told once (class 15 detail 0x02). The
answer says whether it entered. -/
def State.logPost (s : State) (ctrl : Nat) (p : Post) (cause : Nat) (faddr : Nat) (st : LogState) : Bool × State :=
  let l := s.card.sideLog ctrl p.colour
  let off := l.nextOff
  let x : Exc := ⟨15, 2, 0#64, BitVec.ofNat 64 ctrl⟩
  if 2 ^ 20 < off + 64 + p.logPayload.length then
    (false, if l.full then s else
      (({ s with card := s.card.putSideLog { l with full := true } } : State).machineEvent (some p.colour) p.strand x).sendMachineCheck p.strand x)
  else
    let e : LogEntry := ⟨l.tail, off, p, BitVec.ofNat 64 faddr, cause, st, false⟩
    let l' : SideLog := { l with
      head := if l.head = l.tail ∧ st ≠ .pending then l.tail + 1 else l.head
      tail := l.tail + 1
      entries := l.entries ++ [e] }
    let k := ((s.card.putSideLog l').mirrorLog l' e).mergeBytes (sideLogVa ctrl p.colour + off + 64) p.logPayload
    let t : State := { s with card := k }
    (true, if cause = 0 then t else t.sendReport l' e)

/-- The head of a log after entries have been resolved: its oldest pending entry. An empty log has room again. -/
def SideLog.advance (l : SideLog) : SideLog :=
  let pending := l.entries.find? fun e => e.state == .pending
  { l with head := (pending.map LogEntry.seq).getD l.tail, full := l.full && pending.isSome }

/-- An entry replaced. -/
def SideLog.put (l : SideLog) (e : LogEntry) : SideLog := { l with entries := l.entries.map fun f => if f.seq = e.seq then e else f }

def State.putEntry (s : State) (l : SideLog) (e : LogEntry) : State :=
  let l' := (l.put e).advance
  { s with card := (s.card.putSideLog l').mirrorLog l' e }

/-! ### What a post does at its target -/

/-- The result of a RED (R122). -/
def redResult (op type old b : Nat) : Nat :=
  if type = 2 then
    match op with
    | 0 => (roundVal fp32 .nearest false (addVal false (decodeFloat fp32 old) (decodeFloat fp32 b)).1).code
    | 1 => (minMaxCode fp32 true old b).1
    | _ => (minMaxCode fp32 false old b).1
  else
    let bits := 8 * redBytes type
    let o : AtomicOp := match op with
      | 0 => .add
      | 1 => .min false
      | _ => .max false
    (o.apply bits old b).getD old

/-- A RED performs where its target is (R123, R292), in the view of its sender. -/
def State.reduce (s : State) (p : Post) (op type : Nat) : State :=
  let n := redBytes type
  (s.modifyWith (s.redPoint p.scope p.addr) p.addr n fun old => some (redResult op type old (p.oper.toNat % 2 ^ (8 * n)))).2

def State.applyRed (s : State) (p : Post) (op type : Nat) : State := s.onSender p fun s => s.reduce p op type

/-- A logged RED is one to a global address (R332): the windows that its sender's core has now are no part of it. -/
def State.applyLogged (s : State) (p : Post) (op type : Nat) : State :=
  s.onSender p fun s =>
    let t := s.core.stash
    let r := (s.withStash { t with windows := Vector.replicate 8 none, aperture := none }).reduce p op type
    r.withStash { r.core.stash with windows := t.windows, aperture := t.aperture }

/-- A reduction or a store that reaches the peer while the bridge is down waits for it (R443). -/
def State.peerWaits (s : State) (p : Post) : Bool :=
  !s.card.bridge.up && (s.card.translate p.asid p.colour p.addr).map Leaf.target == some .peer

/-- The memory-side check of a RED (R123, R380): none, or the class-3 detail and the byte. A page of the peer is checked at the peer's unit
too, once the bridge is up (R366). -/
def State.redFault (s : State) (p : Post) (type : Nat) : Option (Nat × Nat) :=
  match s.memoryDenied .store p.asid p.colour p.sup p.addr (redBytes type) with
  | some f => some f
  | none => if s.card.bridge.up then (s.peerAccess .store p.asid p.colour p.addr).map fun d => (p.addr, d) else none

/-- What a sketch post's header unit works out (R228, R230): the record after the operation, and the counter updates. -/
structure SketchPlan where
  record : Record
  updates : List (Nat × CounterOp)
deriving DecidableEq, Repr

/-- The record of a SKINIT. -/
def initRecord (base klimit : Word) (geom : BitVec 32) : Record where
  base := base.toNat
  klimit := klimit.toNat
  depth := (geom.extractLsb' 0 3).toNat
  cfmt := 0x0C
  lgw := (geom.extractLsb' 8 5).toNat
  scale := (geom.extractLsb' 16 8).toInt
  seedset := (geom.extractLsb' 24 2).toNat
  sat := false
  upd := 0
  satcnt := 0
  zeros := true

/-- The deltas of SKUPD's elements in order, and the record with what DELTA does to it (R212, R213). -/
def deltasOf (r : Record) : List Val → List Int × Record
  | [] => ([], r)
  | v :: vs =>
    let d := deltaOf v r
    let rest := deltasOf d.2 vs
    (d.1 :: rest.1, rest.2)

/-- Counter arrays that are identical or disjoint (R215). -/
def arraysOk (r q : Record) : Bool := r.base == q.base || !overlap (r.base, r.base + r.arrayBytes) (q.base, q.base + q.arrayBytes)

/-- The counters that updates read do not meet a line with an uncorrectable error (R228). -/
def checkReads (bad : Option Nat) : List (Nat × CounterOp) → Except UnitFault Unit
  | [] => .ok ()
  | u :: us =>
    match u.2 with
    | .set _ => checkReads bad us
    | .addFrom src => do
      readCheck bad u.1 4
      readCheck bad src 4
      checkReads bad us
    | _ => do
      readCheck bad u.1 4
      checkReads bad us

/-- The plan, once every counter that it reads can be read. -/
def readable (bad : Option Nat) (r : Record) (us : List (Nat × CounterOp)) : Except UnitFault SketchPlan :=
  if bad.isNone then .ok ⟨r, us⟩ else (checkReads bad us).map fun _ => ⟨r, us⟩

/-- The checks of R228 in order, then the plan. SKADD's source at an address that is no multiple of 64 is read there as it is (no rule names a
fault for it, DESIGN CHOICE, log entry 65). -/
def State.planSketch (s : State) (p : Post) (bad : Option Nat) : Except UnitFault SketchPlan := do
  match p.kind with
  | .skInit base klimit geom =>
    s.areaCheck .atomic p.asid p.colour p.sup p.addr 64
    let r := initRecord base klimit geom
    s.areaCheck .atomic p.asid p.colour p.sup r.base r.arrayBytes
    .ok ⟨r, r.allCounters fun _ => .set 0⟩
  | .skZero =>
    let r ← s.recordCheck .atomic p.asid p.colour p.sup bad p.addr
    s.areaCheck .atomic p.asid p.colour p.sup r.base r.arrayBytes
    .ok ⟨{ r with sat := false, upd := 0, satcnt := 0 }, r.allCounters fun _ => .set 0⟩
  | .skUpd keyed base =>
    let r ← s.recordCheck .atomic p.asid p.colour p.sup bad p.addr
    s.areaCheck .atomic p.asid p.colour p.sup r.base r.arrayBytes
    let vs := p.values.sketchVals
    let ks := keysOf keyed base p.keys vs.length
    if !ks.all r.hasKey then .error (7, 1, p.addr)
    else
      let d := deltasOf r vs
      readable bad { d.2 with upd := (r.upd + vs.length) % 2 ^ 64 } ((ks.zip d.1).flatMap fun q => r.updatesOf q.1.toNat q.2)
  | .skAdd src =>
    let r ← s.recordCheck .atomic p.asid p.colour p.sup bad p.addr
    let q ← s.recordCheck .atomic p.asid p.colour p.sup bad src
    if !(r.sameShape q && arraysOk r q) then .error (7, 2, p.addr)
    else
      s.areaCheck .atomic p.asid p.colour p.sup r.base r.arrayBytes
      s.areaCheck .atomic p.asid p.colour p.sup q.base q.arrayBytes
      readable bad (r.combined q) (r.allCounters fun j => .addFrom (q.base + 4 * j))
  | .skMul f =>
    let r ← s.recordCheck .atomic p.asid p.colour p.sup bad p.addr
    s.areaCheck .atomic p.asid p.colour p.sup r.base r.arrayBytes
    readable bad r (r.allCounters fun _ => .mul f)
  | _ => .error (7, 0, p.addr)

/-- The record's write: SKINIT writes all of it, the others words 2 to 4. -/
def State.writeRecord (s : State) (p : Post) (r : Record) : State :=
  match p.kind with
  | .skInit .. => s.writeHomeBytes p.asid p.colour p.addr (toBytes 64 r.toNat)
  | .skMul _ => s
  | _ => s.putRecord p.asid p.colour p.addr r

/-- An operation begins: it reads and writes its record, and SKADD the source's record (R230, R391). -/
def State.beginPlan (s : State) (p : Post) (plan : SketchPlan) : State :=
  let oct := some (octantOf p.core)
  let s := match p.kind with
    | .skInit .. => s
    | .skAdd src => (s.unitRead oct p.asid p.colour p.addr 64).unitRead oct p.asid p.colour src 64
    | _ => s.unitRead oct p.asid p.colour p.addr 64
  s.writeRecord p plan.record

/-- One counter update of an operation: the counters that it reads are read, and it performs. -/
def State.applyUpdate (s : State) (p : Post) (u : Nat × CounterOp) : State :=
  let oct := some (octantOf p.core)
  let s := match u.2 with
    | .set _ => s
    | .addFrom src => (s.unitRead oct p.asid p.colour u.1 4).unitRead oct p.asid p.colour src 4
    | _ => s.unitRead oct p.asid p.colour u.1 4
  s.applyCounter p.asid p.colour p.addr u

/-- A sketch post applied whole, as a replay applies it (R337). -/
def State.applyPlan (s : State) (p : Post) (plan : SketchPlan) : State :=
  plan.updates.foldl (fun s u => s.applyUpdate p u) (s.beginPlan p plan)

/-- The controller whose log takes a failure of a post (R332): beside the translation unit of a RED's address, the header unit of a sketch
record, that of the receiving badger core. Pages are aligned to 64 KiB at least, so a record's offset has bits [15:12] of its address
(R361), whether it is mapped or not. -/
def State.logController (s : State) (p : Post) : Nat :=
  match p.kind with
  | .red .. => unitOf (tagOf p.asid p.addr)
  | .push q _ => ((s.card.queues.find? fun g => g.launch == strandLaunch p.strand && g.queue == q).map fun g => g.badger / 2).getD 0
  | .message _ => 0
  | _ => controllerOf p.addr

/-- The launch's queue that a push names. -/
def State.pushQueue (s : State) (p : Post) (q : Nat) : Option GradQueue :=
  s.card.queues.find? fun g => g.launch == strandLaunch p.strand && g.queue == q

/-- Whether a lane has another sender than the post's (R247). -/
def GradLane.taken (l : GradLane) (p : Post) : Bool := match l.sender with
  | some w => !sameStrand w p.strand
  | none => false

/-- Whether a push comes from a second sender (R247). -/
def State.secondSender (s : State) (p : Post) : Bool :=
  match p.kind with
  | .push q l => ((s.pushQueue p q).bind fun g => g.lane? l).any fun x => x.taken p
  | _ => false

/-- A push's entry is written into its lane (R246, R247). -/
def State.landPush (s : State) (p : Post) : State :=
  match p.kind with
  | .push q l =>
    match s.pushQueue p q with
    | none => s
    | some g => match g.lane? l with
      | none => s
      | some x => s.putQueue (g.putLane { x with
          sender := some (x.sender.getD p.strand), entries := x.entries ++ [⟨p.values, p.oper, p.strand, p.core⟩] })
  | _ => s

/-- The dropped entry of a second sender: its window count starts on its way back (R247). -/
def State.returnPush (s : State) (p : Post) : State :=
  match p.kind with
  | .push q l =>
    let stop := ((s.pushQueue p q).map fun g => stopOf (256 + g.badger)).getD 32
    ({ s with card := { s.card with returns := s.card.returns ++ [⟨p.core, p.strand, q, l, stop, s.card.packets⟩] } } : State).countPacket
  | _ => s

/-- A discarded side-log entry is counted with its launch (R338, R415). -/
def State.countDiscard (s : State) (p : Post) : State :=
  { s with card := s.card.mapLaunch (strandLaunch p.strand) fun l => { l with discards := l.discards + 1 } }

/-- The cause of class 8 detail 0x04. -/
def secondSenderCause : Nat := 8 * 64 + 4

/-- What comes of an entry that is replayed: it is applied, it waits for the bridge or for the host's answer as the original would, or it
fails. -/
inductive ReplayResult where
  | applied (s : State)
  | waits (s : State)
  | failed (f : UnitFault)

/-- A change that merges at L2: it waits while the host may hold one of its lines. -/
def State.replayed (s t : State) : ReplayResult :=
  match s.heldBy t with
  | [] => .applied t
  | lines => .waits (s.snoop lines)

/-- A pending entry replayed, with a line that has uncorrectable data, if there is one (R329). -/
def State.replayPost (s : State) (p : Post) (bad : Option Nat) : ReplayResult :=
  match p.kind with
  | .red op type => match s.redFault p type, readCheck bad p.addr (redBytes type) with
    | some (b, d), _ => .failed (3, d, b)
    | none, .error f => .failed f
    | none, .ok _ => if s.peerWaits p then .waits s else s.replayed (s.applyLogged p op type)
  | .push .. => .applied (s.landPush p)
  | .message _ => .applied s
  | _ => match s.planSketch p bad with
    | .ok plan => s.replayed (s.applyPlan p plan)
    | .error f => .failed f

/-- A log takes a change. -/
def State.mapLog (s : State) (ctrl colour : Nat) (f : SideLog → SideLog) : State :=
  { s with card := { s.card with sideLogs := s.card.sideLogs.map fun l => if l.ctrl = ctrl ∧ l.colour = colour then f l else l } }

/-- A pending entry is discarded (R338): the operation never takes effect, and its launch counts it. -/
def State.discardEntry (s : State) (l : SideLog) (e : LogEntry) : State :=
  (s.countDiscard e.post).putEntry l { e with state := .discarded }

/-- A replay from head (R337), for as many entries as the fuel: entries that are not pending are passed over, one to which software has
written state 0b11 is discarded, one of class 3, or appended behind another without a fault of its own, is tried again, one of any other
class stops it. -/
def State.replayFrom (bad : Option Nat) : Nat → State → Nat → Nat → State
  | 0, s, _, _ => s
  | n + 1, s, ctrl, colour =>
    let l := s.card.sideLog ctrl colour
    match l.entries.find? fun e => e.state == .pending with
    | none => s
    | some e =>
      if e.marked then State.replayFrom bad n (s.discardEntry l e) ctrl colour
      else if e.cause / 64 ≠ 3 ∧ e.cause ≠ 0 then s
      else if s.secondSender e.post then
        let f := { e with cause := secondSenderCause, state := .discarded }
        State.replayFrom bad n ((((s.returnPush e.post).countDiscard e.post).putEntry l f).sendReport l f) ctrl colour
      else match s.replayPost e.post bad with
        | .applied t => State.replayFrom bad n (t.putEntry (t.card.sideLog ctrl colour) { e with state := .applied }) ctrl colour
        | .waits t => t.mapLog ctrl colour fun l => { l with replaying := true }
        | .failed (cls, d, b) =>
          let e' := { e with cause := cls * 64 + d, faddr := BitVec.ofNat 64 b }
          ((s.countAbsent e.post.asid e.post.colour cls d b).putEntry l e').sendReport (l.put e').advance e'

/-- The replay of a whole log, with a line that has uncorrectable data, if there is one. -/
def State.replay (s : State) (ctrl colour : Nat) (bad : Option Nat) : State :=
  State.replayFrom bad (s.card.sideLog ctrl colour).entries.length
    (s.mapLog ctrl colour fun l => { l with rung := false, replaying := false }) ctrl colour

/-- The replays that wait are due again: the host has answered, or the bridge is up again. Each goes on as a doorbell's does. -/
def State.goOnReplaying (s : State) : State :=
  { s with card := { s.card with sideLogs := s.card.sideLogs.map fun l => if l.replaying then { l with rung := true, replaying := false } else l } }

end Sys2Proof.Machine
end

