-- ==== Sys2Proof/Machine/Packets.lean ====
section
/-! DEFINITION. The order of packets on the mesh (R427): those from one stop to one stop arrive in the order in which they were sent. The packets
that the model follows are posts (R124), window counts (R248) and class-12 reports (R335). -/

namespace Sys2Proof.Machine

/-- A post of the core in focus leaves its queue as a packet (R124, R427). -/
def State.sendPost (s : State) (p : Post) : State :=
  ({ s with card := { s.card with flight := s.card.flight ++ [{ p with number := s.card.packets }] } } : State).countPacket

/-- Whether a post's target is a stash: a window of its sender or the sheaf aperture (R123). -/
def State.stashTarget (s : State) (p : Post) : Bool := (s.senderView p).inStash p.addr

/-- The core that holds a strand's context: it runs there, or has stopped there and is not free yet (R325). -/
def State.contextOf (s : State) (strand : Word) : Option Core :=
  (s.core :: s.card.cores).find? fun c => (c.run == .running || c.run == .stopped) && sameStrand c.strand strand

/-- The mesh stop that a push goes to: that of its queue's badger core. -/
def State.pushStop (s : State) (p : Post) : Option Nat :=
  match p.kind with
  | .push q _ => (s.pushQueue p q).map fun g => stopOf (256 + g.badger)
  | _ => none

/-- The core that a message goes to. -/
def State.targetCore (s : State) (target : Word) : Option Core :=
  (s.core :: s.card.cores).find? fun c => c.run == .running && sameStrand c.strand target

/-- The mesh stop that a post's packet goes to: the owner of an aperture byte, the L2 slice of a global byte (numbered from 64), the controller
of a sketch record, the badger core of a queue, the core of a message. A post that stays within its cluster, or goes to the peer or to a target
that is not there, has none. -/
def State.postStop (s : State) (p : Post) : Option Nat :=
  match p.kind with
  | .red .. => match (s.senderView p).redPoint p.scope p.addr with
    | .aperture o _ => some (stopOf o)
    | .home => match s.homeOf p.asid p.colour p.addr with
      | some (.local _) => some (64 + l2Slice (tagOf p.asid p.addr) / 2)
      | _ => none
    | _ => none
  | .push .. => s.pushStop p
  | .message target => (s.targetCore target).map fun c => stopOf c.num
  | _ => some (32 + controllerOf p.addr)

/-- A post has arrived and is held at its target: by a full log (R332), or by a full inbox (R253). -/
def State.heldThere (s : State) (p : Post) : Bool :=
  match p.kind with
  | .message target => (s.targetCore target).any fun c => decide (16 ≤ c.inbox.length)
  | _ => !s.stashTarget p && s.card.logFull (s.logController p) p

/-- The packets under way, each with the stops between which it goes and its number. A count whose strand is not placed and a report whose core
has 8 already have arrived, and wait there (R248, R316). -/
def State.packets (s : State) : List ((Nat × Nat) × Nat) :=
  (s.card.flight.filterMap fun p => if s.heldThere p then none else (s.postStop p).map fun d => ((stopOf p.core, d), p.number)) ++
    (s.card.returns.filterMap fun r => (s.contextOf r.strand).map fun c => ((r.stop, stopOf c.num), r.number)) ++
    s.card.reports.filterMap fun r =>
      if (s.coreOf r.strand).any (fun c => decide (8 ≤ c.reports.length)) then none
      else some ((32 + r.exc.finfo.toNat / 2 ^ 32, stopOf r.core), r.number)

/-- A packet that was sent earlier between the same stops is still under way. -/
def State.overtaken (s : State) (route : Nat × Nat) (number : Nat) : Bool :=
  s.packets.any fun q => q.1 == route && decide (q.2 < number)

/-- The same of a post that is under way. -/
def State.postOvertaken (s : State) (p : Post) : Bool :=
  match s.postStop p with
  | some d => s.overtaken (stopOf p.core, d) p.number
  | none => false

end Sys2Proof.Machine
end

