-- ==== Sys2Proof/Machine/CoreEvents.lean ====
section
/-! DEFINITION. Events of the core in focus: fetch, pipeline, drain, entries (R311-R330), waits that end by time, stash and copy engine. -/

namespace Sys2Proof.Machine

/-- A strand runs on the core. -/
def Core.active (c : Core) : Bool := c.run == .running

/-! ### Pipeline -/

/-- LINE_FETCH (R340, R342): the line of the PC is delivered. -/
def execLineFetch (s : State) : Host.Outcome State Fault Refusal :=
  if s.core.active && (s.fetchFault s.core.pc 0#64).isNone then .next (s.deliver (lineOf s.core.pc).toNat).1 else .next s

/-- RETIRE (R353): an instruction's step retires it. -/
def execRetire (s : State) : Host.Outcome State Fault Refusal := .next s

/-- INSTRUCTION_COMPLETE (R351): a moment in time only. -/
def execInstructionComplete (s : State) : Host.Outcome State Fault Refusal := .next s

/-- STORE_DRAIN_WRITE (R147): the oldest write of the drain performs, or goes out; a write that merges at L2 waits while the host may hold
its line. -/
def execStoreDrainWrite (s : State) : Host.Outcome State Fault Refusal :=
  match s.heldBy s.drainOne with
  | [] => .next s.drainOne
  | lines => .next (s.snoop lines)

/-- APERTURE_ACCESS_PERFORM (R305): the aperture store that is under way performs at its owner; without one, the oldest rendezvous update of
the core in focus does. -/
def execApertureAccessPerform (s : State) : Host.Outcome State Fault Refusal :=
  match s.drainSent with
  | some w => if (s.core.apertureAt (tagVa w.tag)).isSome then .next s.drainPerform else .next s.updateOne
  | none => .next s.updateOne

/-! ### Entries -/

/-- ASYNCHRONOUS_ENTRY (R316). -/
def execAsynchronousEntry (s : State) : Host.Outcome State Fault Refusal :=
  if s.core.active then .next s.takeAsync else .next s

/-- A report at its strand: pending at its core while that holds fewer than 8, kept with the context of a strand that is not placed,
dropped when the strand has ended (R316, R335). A core that runs a later incarnation of the strand does not take it: the driver has it. -/
def State.deliverReport (s : State) (r : Report) : Option State :=
  match s.coreOf r.strand with
  | some c =>
    if strandIncarnation c.strand ≠ strandIncarnation r.strand then some s
    else if c.reports.length < 8 then some (s.setCore { c with reports := c.reports ++ [r.exc] })
    else none
  | none => some { s with card := s.card.mapStrand (strandLaunch r.strand) (strandIndexOf r.strand) fun i =>
      if i.ended then i else { i with kept := i.kept ++ [r.exc] } }

/-- DEFERRED_REPORT_ARRIVAL (R335, R427). -/
def execDeferredReportArrival (index : Nat) (s : State) : Host.Outcome State Fault Refusal :=
  match s.card.reports[index]? with
  | none => .next s
  | some r =>
    if s.overtaken (32 + r.exc.finfo.toNat / 2 ^ 32, stopOf r.core) r.number then .next s
    else match ({ s with card := { s.card with reports := s.card.reports.eraseIdx index } } : State).deliverReport r with
      | some t => .next t
      | none => .next s

/-- The pre-emption signal at a core (R327): the strand parks (R32), and the record names its image. A strand that has executed HALT and whose
end is not reported stands at that HALT again, where the cause is taken (R421). -/
def State.signalPreempt (s : State) (img images : Nat) : State :=
  { s with core := { s.core with
      run := .running
      waiting := if s.core.run = .ended then some .atHalt else s.core.waiting
      parked := .preempting
      preempt := some ⟨13, 0, BitVec.ofNat 64 (img + s.core.strandIndex * 2 ^ 20), if images = 0 then 0#64 else 1#64⟩ } }

/-- PRE_EMPTION_SIGNAL (R327, R421): at a core of a partition that is being pre-empted, whose strand's end is not reported. -/
def execPreEmptionSignal (s : State) : Host.Outcome State Fault Refusal :=
  let on := s.card.partitions.any fun p => p.colour == s.core.colour.toNat && p.preempting.isSome
  if !(s.core.active || s.core.run == .ended) || !on || s.core.parked == .preempting then .next s
  else match s.card.launches.find? fun l => l.id == s.core.launchOf, s.card.strandInfo s.core.launchOf s.core.strandIndex with
    | some l, some i => .next (s.signalPreempt l.img i.images)
    | _, _ => .next s

/-! ### Errors (R329, R330, R444, R445) -/

/-- Dirty stash bytes of a granule are lost: the granule is refilled when it is next read. -/
def Stash.lose (t : Stash) (off : Nat) : Stash :=
  { t with granules := t.granules.filter fun p => p.1 != off / 128 }

/-- The cores of a cluster whose strands have dirty bytes in a line, placed or not. -/
def State.writersOf (s : State) (k line : Nat) : List Core :=
  match (s.clusterAt k).find line with
  | none => []
  | some l =>
    if l.dmask = 0 then []
    else (s.core :: s.card.cores).filter fun c => clusterOf c.num == some k && l.wmask.getLsbD (coreInCluster c.num)

/-- The colour of the partition that holds a cluster. -/
def Card.clusterOwner (k : Card) (cluster : Nat) : Option Nat :=
  (k.partitions.find? fun p => p.clusters.getLsbD cluster).map Partition.colour

/-- The colour of the partition whose address space a line belongs to; none for the shared region. -/
def Card.lineOwner (k : Card) (line : Nat) : Option Nat :=
  if tagAsid line = 0 then none else (k.context (tagAsid line)).map fun c => c.colour.toNat

/-- A side-log entry is lost. -/
def Card.loseEntry (k : Card) (l : SideLog) (e : LogEntry) : Card :=
  k.putSideLog ({ l with entries := l.entries.filter fun f => f.seq != e.seq } : SideLog).advance

/-- The class-15 record (R313, R331): the number stands in [7:0]. -/
def machineCheckOf (detail number addr : Nat) : Exc := ⟨15, detail, BitVec.ofNat 64 addr, BitVec.ofNat 64 (number % 256)⟩

/-- MACHINE_CHECK (R330, R331): `number` is the core, the cluster or the controller, `addr` the tagged line, or for detail 0x02 the
colour·2^32 + sequence number of the entry. Each is one event of the driver (R438). Lost bytes are refilled when they are next read; only
strands whose dirty bytes or entries are lost receive class 15. Detail 0x04 is an error in a line of L2, 0x05 one in HBM, which scrubbing or a
write-back has met: R331 has no detail for them and L2 keeps no writers, so no strand receives class 15 (DESIGN CHOICE, log entry 72). -/
def execMachineCheck (detail number addr : Nat) (s : State) : Host.Outcome State Fault Refusal :=
  let x := machineCheckOf detail number (tagVa addr)
  match detail with
  | 0 =>
    match s.coreAt number with
    | none => .next s
    | some c =>
      match c.windowOff (tagAsid addr) (tagVa addr) with
      | none => .next s
      | some off =>
        let t := (s.machineEvent (some c.colour.toNat) c.strand x).setCore { c with stash := c.stash.lose off }
        if (c.stash.granule (off / 128)).dmask = 0 then .next t else .next (t.reportLoss c.strand x)
  | 1 =>
    match (s.clusterAt number).find addr with
    | none => .next s
    | some _ =>
      let ws := s.writersOf number addr
      let t := s.machineEvent (s.card.clusterOwner number) ((ws.head?.map Core.strand).getD 0#64) x
      let t := t.setCluster number ((t.clusterAt number).evict addr)
      .next (ws.foldl (fun s c => s.reportLoss c.strand x) t)
  | 2 =>
    let l := s.card.sideLog number (addr / 2 ^ 32)
    match l.entries.find? fun e => e.seq == addr % 2 ^ 32 && e.state == .pending with
    | none => .next s
    | some e =>
      let x := machineCheckOf 2 number 0
      let t : State := { s with card := s.card.loseEntry l e }
      .next ((t.machineEvent (some e.post.colour) e.post.strand x).reportLoss e.post.strand x)
  | 4 =>
    match s.card.l2Find addr with
    | none => .next s
    | some l =>
      let t := s.machineEvent (s.card.lineOwner addr) 0#64 x
      .next { t with card := { t.card with l2 := t.card.l2.filter fun m => m.tag != l.tag } }
  | 5 => .next (s.machineEvent (s.card.lineOwner addr) 0#64 x)
  | _ =>
    match s.coreAt number with
    | some c =>
      let x := machineCheckOf 3 number 0
      if c.active then .next ((s.machineEvent (some c.colour.toNat) c.strand x).sendMachineCheck c.strand x) else .next s
    | none => .next s

/-- A count by key goes up by one. -/
def countUp {α : Type} [DecidableEq α] (l : List (α × Nat)) (k : α) : List (α × Nat) :=
  match l with
  | [] => [(k, 1)]
  | (j, n) :: rest => if j = k then (j, n + 1) :: rest else (j, n) :: countUp rest k

def countAt {α : Type} [DecidableEq α] (l : List (α × Nat)) (k : α) : Nat := ((l.find? fun p => decide (p.1 = k)).map Prod.snd).getD 0

/-- The kinds of arrays by which corrected errors are counted (R444, R449): 0 tiles, 1 accumulators, 2 pins, 3 register files, 4 stashes,
5 caches, 6 queues, 7 TLBs, 8 firmware memories, 9 L2, 10 HBM. Kinds 0 to 4 are arrays of a core, and so are kinds 5 to 7 of a unit below 288:
the instruction cache, the queues and the permission TLB of that core (the numbers of units, DESIGN CHOICE, log entry 27). -/
def coreArray (kind unit : Nat) : Bool := decide (kind < 5) || (decide (kind < 8) && decide (unit < 288))

/-- A corrected error is counted (R444, R445): those of a core with their clocks, as far as they lie within 2^30; an L2 set is mapped out
at 16, up to 64 sets of a slice. -/
def Service.correct (v : Service) (kind unit set now : Nat) : Service :=
  let v := { v with corrected := countUp v.corrected kind }
  let v := if coreArray kind unit then { v with coreErrors := (v.coreErrors.filter fun q => decide (now < q.2 + 2 ^ 30)) ++ [(unit, now)] } else v
  if kind = 9 then
    let e := countUp v.setErrors (unit, set)
    if 16 ≤ countAt e (unit, set) ∧ (v.mappedOut.filter fun p => p.1 == unit).length < 64 ∧ !v.mappedOut.contains (unit, set) then
      { v with setErrors := e, mappedOut := v.mappedOut ++ [(unit, set)] }
    else { v with setErrors := e }
  else v

/-- HBM_CHANNEL_SPARING (R445): programs see no change. -/
def execHbmChannelSparing (channel : Nat) (s : State) : Host.Outcome State Fault Refusal :=
  .next (s.mapService fun v => if v.spared.contains channel then v else { v with spared := v.spared ++ [channel] })

/-- SCRUB (R444): contents are unchanged; an error that it finds is a MACHINE_CHECK of its own, with detail 0x04 or 0x05 (R330). -/
def execScrub (s : State) : Host.Outcome State Fault Refusal := .next s

/-! ### Waits that end by time -/

/-- The waiting instruction in focus, fetched again, when it is one that `f` knows. -/
def State.atWait (s : State) (f : Instr → Option (State → Host.Outcome State Fault Refusal)) : Host.Outcome State Fault Refusal :=
  if !s.core.active || s.core.waiting.isNone || !s.core.fw.isEmpty then .next s
  else match s.fetch with
    | .error _ => .next s
    | .ok (t, i) => match f i with
      | some g => aged (g t)
      | none => .next s

/-- SLEEP_WAKE (R321): s.cycle has reached the wake time. -/
def execSleepWake (s : State) : Host.Outcome State Fault Refusal :=
  s.atWait fun i => match i with
    | .sleep xd xa => if (s.core.xr xa).toNat ≤ s.core.cycle.toNat then some (execSleep xd xa) else none
    | _ => none

/-- SYNC_WAIT_TIMEOUT (R270): s.sytmo has expired. -/
def execSyncWaitTimeout (s : State) : Host.Outcome State Fault Refusal :=
  s.atWait fun i =>
    if !s.core.timedOut then none
    else match i with
      | .sywait xd xa index acq => some (execSywait xd xa index acq)
      | .sybar xd index rel acq => some (execSybar xd index rel acq)
      | .sybc xd xa xc index sel rel acq => some (execSybc xd xa xc index sel rel acq)
      | .syred xd xa xc index sel u rel acq => some (execSyred xd xa xc index sel u rel acq)
      | .rzwait xd xa xb acq scope => some (execRzwait xd xa xb acq scope)
      | _ => none

/-- COPY_DEADLINE_LATE (R239): s.cycle has reached the deadline of a CPYWAIT. -/
def execCopyDeadlineLate (s : State) : Host.Outcome State Fault Refusal :=
  s.atWait fun i => match i with
    | .cpywait xd xa xb => if (s.core.xr xb).toNat ≤ s.core.cycle.toNat then some (execCpywait xd xa xb) else none
    | _ => none

/-- COLLECTIVE_DEADLINE_LATE (R257): s.cycle has reached the deadline of an LKWAIT. -/
def execCollectiveDeadlineLate (s : State) : Host.Outcome State Fault Refusal :=
  s.atWait fun i => match i with
    | .lkwait xd xa xb => if (s.core.xr xb).toNat ≤ s.core.cycle.toNat then some (execLkwait xd xa xb) else none
    | _ => none

/-! ### Owlwire and the copy engine -/

/-- A segment's round completes when its last member has arrived (R264). -/
def State.completeRound (s : State) (i : Nat) : State :=
  match s.card.segments[i]? with
  | some g => if g.ready then s.setSegment i g.complete else s
  | none => s

/-- ROUND_COMPLETE (R264). -/
def execRoundComplete (segment : Nat) (s : State) : Host.Outcome State Fault Refusal := .next (s.completeRound segment)

/-- COPY_TRANSFER_BEGIN (R237). -/
def execCopyTransferBegin (channel : Nat) (s : State) : Host.Outcome State Fault Refusal := .next (s.beginTransfer channel)

/-- COPY_BEAT (R236). -/
def execCopyBeat (s : State) : Host.Outcome State Fault Refusal := .next s.copyBeat

/-- Whether the next beat of a channel's transfer is its last. -/
def CopyChannel.lastBeat (k : CopyChannel) : Bool :=
  match k.queue with
  | t :: _ => t.begun && t.moved + t.beat.2.2 == t.rows * t.rowbytes
  | [] => false

/-- TRANSFER_COMPLETE (R236): the last beat of a channel's transfer performs in its turn, and the transfer completes. -/
def execTransferComplete (channel : Nat) (s : State) : Host.Outcome State Fault Refusal :=
  if (s.core.channel channel).lastBeat && s.core.beatChannel == some channel then .next s.copyBeat else .next s

/-- TRANSFER_ERROR (R240): a transfer under way meets uncorrectable data or a failed access. -/
def execTransferError (channel : Nat) (s : State) : Host.Outcome State Fault Refusal :=
  match (s.core.channel channel).queue with
  | t :: _ => if t.begun then .next (s.failTransfer channel) else .next s
  | [] => .next s

end Sys2Proof.Machine
end

