-- ==== Sys2Proof/Machine/MemEvents.lean ====
section
/-! DEFINITION. Events of translation, caches, routers and the host's accesses to device memory (R371-R384, R429, R431-R434, R308). -/

namespace Sys2Proof.Machine

/-! ### Translation -/

/-- The set of a page in a permission TLB (R379). -/
def tlbSet (page lg : Nat) : Nat := page * 2 ^ lg / 2 ^ (if lg = 16 then 16 else if lg = 21 then 21 else 31) % 256

/-- An entry enters a permission TLB of 256 sets of 4 ways; the oldest of a full set leaves. -/
def fillTlb (tlb : List TlbEntry) (e : TlbEntry) : List TlbEntry :=
  let same (f : TlbEntry) : Bool := tlbSet f.page f.lg == tlbSet e.page e.lg
  let others := tlb.filter fun f => !(f.asid == e.asid && f.colour == e.colour && f.page == e.page && f.lg == e.lg)
  if (others.filter same).length < 4 then others ++ [e]
  else match others.find? same with
    | some old => others.erase old ++ [e]
    | none => others ++ [e]

/-- PERMISSION_TLB_MISS (R379): only a present translation fills the TLB of the core in focus. -/
def execPermissionTlbMiss (va : Nat) (s : State) : Host.Outcome State Fault Refusal :=
  match s.card.translate s.core.asid.toNat s.core.colour.toNat va with
  | none => .next s
  | some l =>
    let e : TlbEntry := ⟨if shared va then 0 else s.core.asid.toNat, s.core.colour.toNat, va / 2 ^ l.lg, l.lg, l.r, l.w, l.x, l.sup⟩
    .next { s with core := { s.core with tlb := fillTlb s.core.tlb e } }

/-- The non-leaf entries that a walk reads, and whether it stops at a malformed entry (R384). -/
def walkPath (hbm : Memory) (asid colour : Nat) : List Nat → Nat → Nat → List (Nat × Word) × Bool
  | [], _, _ => ([], false)
  | level :: rest, t, va =>
    let a := t + 8 * levelIndex level va
    match walkEntry hbm asid colour level t va with
    | .absent m => ([], m)
    | .leaf _ => ([], false)
    | .table u =>
      let r := walkPath hbm asid colour rest u va
      ((a, BitVec.ofNat 64 (ofBytes (readBytes hbm a 8))) :: r.1, r.2)

/-- The newest n entries of a unit stay. -/
def keepNewest {α : Type} (unit : α → Nat) (u n : Nat) (l : List α) : List α :=
  let mine := l.filter fun x => unit x == u
  (l.filter fun x => unit x != u) ++ mine.drop (mine.length - n)

/-- The page base of a leaf's target. -/
def Leaf.atBase (l : Leaf) (va : Nat) : Leaf :=
  { l with target := match l.target with
    | .local pa => .local (pa - va % 2 ^ l.lg)
    | .peer => .peer
    | .host h => .host (h - va % 2 ^ l.lg) }

/-- MEMORY_SIDE_WALK (R384): the unit of the address walks; when it finds a translation, its walker cache takes the non-leaf entries and its
TLB the page, else nothing is cached and a malformed entry is counted. -/
def execMemorySideWalk (asid colour va : Nat) (s : State) : Host.Outcome State Fault Refusal :=
  let k := s.card
  let a := if shared va then 0 else asid
  let u := unitOf (tagOf asid va)
  match k.context a with
  | none => .next s
  | some c =>
    if a ≠ 0 ∧ c.colour.toNat ≠ colour then .next s
    else
      let view := k.walkerView u
      let p := walkPath view a colour [4, 3, 2, 1] c.root va
      let fresh := (p.1.filter fun q => !(k.walkCache.any fun w => w.unit == u && w.addr == q.1)).map fun q =>
        (⟨u, q.1, q.2⟩ : WalkEntry)
      let k := match walkFrom view a colour [4, 3, 2, 1] c.root va with
        | none => { k with malformed := if p.2 then k.malformed + 1 else k.malformed }
        | some l =>
          let e : UnitTlbEntry := ⟨u, a, colour, va / 2 ^ l.lg, l.atBase va⟩
          let others := k.unitTlb.filter fun f =>
            !(f.unit == u && f.asid == a && f.colour == colour && f.page == e.page && f.leaf.lg == l.lg)
          { k with
            walkCache := keepNewest WalkEntry.unit u 256 (k.walkCache ++ fresh)
            unitTlb := keepNewest UnitTlbEntry.unit u 4096 (others ++ [e]) }
      .next { s with card := k }

/-! ### Caches -/

/-- WINDOW_GRANULE_FILL (R304, R377): a granule of a window of the core in focus fills on its first touch. -/
def execWindowGranuleFill (va : Nat) (s : State) : Host.Outcome State Fault Refusal :=
  let asid := s.core.asid.toNat
  let colour := s.core.colour.toNat
  match s.core.windowOff asid va, s.homeOf asid colour va with
  | some off, some _ => .next (s.readGranule asid colour va off 1)
  | _, _ => .next s

/-- CLUSTER_CACHE_FILL (R371). -/
def execClusterCacheFill (va : Nat) (s : State) : Host.Outcome State Fault Refusal :=
  let asid := s.core.asid.toNat
  match clusterOf s.core.num with
  | none => .next s
  | some k => .next (s.fillLine k asid s.core.colour.toNat va)

/-- CLUSTER_CACHE_VICTIM (R375): the line is the least recently used one of a full set; its dirty bytes go to L2 first. -/
def execClusterCacheVictim (cluster line : Nat) (s : State) : Host.Outcome State Fault Refusal :=
  if ((s.clusterAt cluster).victim line).map CacheLine.tag ≠ some line then .next s
  else
    let t := s.writeBackLine cluster ((s.card.clusterOwner cluster).getD 0) line
    match s.heldBy t with
    | [] => .next (t.setCluster cluster ((t.clusterAt cluster).evict line))
    | lines => .next (s.snoop lines)

/-- L2_VICTIM (R375): the line is the one that a full set gives up. -/
def execL2Victim (line : Nat) (s : State) : Host.Outcome State Fault Refusal :=
  if (s.card.l2Victim line).map L2Line.tag = some line then .next { s with card := s.card.evictL2 line } else .next s

/-- VERSION_WRAP_SWEEP (R372): of the stash (0), or of the cluster cache for PACKAGE (1) or SYSTEM (2), before the increment that wraps
its version. -/
def execVersionWrapSweep (scope : Nat) (s : State) : Host.Outcome State Fault Refusal :=
  match scope, clusterOf s.core.num with
  | 0, _ => if s.core.stash.ver = 255#8 then .next (s.withStash s.core.stash.sweep) else .next s
  | 1, some k => if (s.clusterAt k).pkgVer = 255#8 then .next (s.setCluster k ((s.clusterAt k).sweep .package)) else .next s
  | 2, some k => if (s.clusterAt k).sysVer = 255#8 then .next (s.setCluster k ((s.clusterAt k).sweep .system)) else .next s
  | _, _ => .next s

/-- A read that its requester marks combinable (R429). -/
def State.combinable (s : State) (va : Nat) : Bool :=
  let asid := s.core.asid.toNat
  let a := if shared va then 0 else asid
  let remote := s.isRemote asid s.core.colour.toNat va
  s.classOf (clusterOf s.core.num) remote va == .readonly ||
    (!remote && match s.core.tlb.find? fun e => e.asid == a && e.colour == s.core.colour.toNat && e.page == va / 2 ^ e.lg with
      | some e => !e.w
      | none => false)

/-- ROUTER_COMBINE (R429): a combinable read of the core in focus reaches a router, whose table holds 16 entries. It is absorbed behind an
entry for its line: it does not reach the slice, and shares the reply (`touchL2`). -/
def execRouterCombine (router va : Nat) (s : State) : Host.Outcome State Fault Refusal :=
  let tag := lineTag (tagOf s.core.asid.toNat va)
  let t := s.card.combining
  if !s.combinable va || t.any (fun e => e.router == router && e.tag == tag && (e.first == s.core.num || e.absorbed.contains s.core.num)) then
    .next s
  else if t.any fun e => e.router == router && e.tag == tag then
    .next { s with card := { s.card with combining := t.map fun e =>
      if e.router = router ∧ e.tag = tag then { e with absorbed := e.absorbed ++ [s.core.num] } else e } }
  else if (t.filter fun e => e.router == router).length < 16 then
    .next { s with card := { s.card with combining := t ++ [⟨router, tag, s.core.num, []⟩] } }
  else .next s

/-! ### Host accesses -/

/-- The virtual address of an offset in the shared region (R364, R367). -/
def sharedVa (off : Nat) : Nat := 0xF000000000000 + off % 2 ^ 48

/-- The address of an offset of physical function 0's BAR2 window (R431). -/
def State.windowVa (s : State) (off : Nat) : Nat := sharedVa (s.card.windowBase.toNat + off)

/-- A command or a host access wakes the package, out of D3hot too, which is as P2 (R448). -/
def State.touchPower (s : State) : State :=
  { s with card := { s.card with power := { s.card.power with lastUse := s.card.clocks[0], state := .active } } }

/-- The malformed entries at which the walks of a host access stop are counted, one for each 64 KiB that it meets (R384). -/
def State.countHost (s : State) (va n : Nat) : State :=
  if n = 0 then s
  else ((List.range ((va + n - 1) / 65536 - va / 65536 + 1)).map fun i => max va ((va / 65536 + i) * 65536)).foldl
    (fun s b => if (s.card.translate 0 16 b).isNone then { s with card := s.card.countMalformed 0 16 b } else s) s

/-- A write of the host at the home of a shared address (R367, R434): it is no device merge, and the host bits stay. -/
def State.hostMerge (s : State) (va : Nat) (bytes : List Byte) : State :=
  let t := (s.countHost va bytes.length).writeHomeBytes 0 16 va bytes
  { t with card := { t.card with hostLines := s.card.hostLines } }

/-- A read of the host: the bytes, and what it leaves in L2, where no octant counts it (R390). -/
def State.hostRead (s : State) (va n : Nat) : State :=
  let t := (s.countHost va n).unitRead none 0 16 va n
  { t with host := { t.host with reads := (va, s.homeBytes 0 16 va n) :: t.host.reads } }

/-- The ingress sequencer takes a posted write, and numbers it in its domain unless it is relaxed (R432). -/
def State.takePosted (s : State) (fn va : Nat) (bytes : List Byte) (relaxed : Bool) : State :=
  let f := s.fn fn
  let w : IngressWrite := ⟨fn, if relaxed then none else some f.ingress, va, bytes⟩
  let t := s.setFn fn { f with ingress := if relaxed then f.ingress else f.ingress + 1 }
  ({ t with card := { t.card with held := t.card.held ++ [w] } } : State).touchPower

/-- L2 accepts a held write once it has accepted every lower-numbered one of its domain (R432). -/
def State.acceptPosted (s : State) (n : Nat) : State :=
  match s.card.held[n]? with
  | none => s
  | some w =>
    let older := s.card.held.any fun v => v.fn == w.fn && match v.number, w.number with
      | some a, some b => decide (a < b)
      | _, _ => false
    if older then s
    else ({ s with card := { s.card with held := s.card.held.eraseIdx n } } : State).hostMerge w.va w.bytes

/-- HOST_POSTED_WRITE (R432): into physical function 0's window, or, with `accept`, the nth held write is accepted. Only that function
has a window (R431). -/
def execHostPostedWrite (fn off : Nat) (bytes : List Byte) (relaxed : Bool) (accept : Option Nat) (s : State) :
    Host.Outcome State Fault Refusal :=
  match accept with
  | some n => .next (s.acceptPosted n)
  | none => if fn ≠ 0 ∨ 2 ^ 31 < off + bytes.length then .next s else .next (s.takePosted fn (s.windowVa off) bytes relaxed)

/-- A register of BAR0 as it reads (R435): 0 at an offset that is not listed. -/
def Function.register (f : Function) (off : Nat) : Word :=
  match off with
  | 0x00 => f.cbase
  | 0x08 => f.cqbase
  | 0x10 => f.evbase
  | 0x18 => f.lgsize.setWidth 64
  | 0x20 => f.cprod.setWidth 64
  | 0x28 => f.ccons.setWidth 64
  | 0x30 => f.qprod.setWidth 64
  | 0x38 => f.evprod.setWidth 64
  | 0x40 => f.evcons.setWidth 64
  | _ => 0#64

/-- A register read returns a value to the host. -/
def State.readRegister (s : State) (fn off : Nat) (v : Word) : State :=
  { s with host := { s.host with registers := ((fn, off), v) :: s.host.registers } }

/-- HOST_READ_REQUEST (R431, R432, R435): of a BAR0 register (bar 0), of physical function 0's window base register (bar 1), which stands
outside BAR0 (the spec gives it no offset; it is noted at 2^16, log entry 19), or of its window (bar 2). It completes after every earlier
posted write of its domain has been accepted. -/
def execHostReadRequest (fn : Nat) (place : Nat × Nat) (n : Nat) (s : State) : Host.Outcome State Fault Refusal :=
  let off := place.2
  if 17 ≤ fn ∨ s.card.held.any (fun w => w.fn == fn) = true then .next s
  else match place.1 with
    | 0 => if off < 2 ^ 16 then .next (s.readRegister fn off ((s.fn fn).register off)).touchPower else .next s
    | 1 => if fn = 0 then .next (s.readRegister 0 (2 ^ 16) s.card.windowBase).touchPower else .next s
    | _ => if fn = 0 ∧ off + n ≤ 2 ^ 31 then .next (s.hostRead (s.windowVa off) n).touchPower else .next s

/-- The bytes of the shared region that the HDM decoder covers: the capacity left after firmware reservations (R433, DESIGN CHOICE, log
entry 57). -/
def hdmBytes : Nat := hbmBytes - Config.hdmReserve % hbmBytes

/-- CXL_MEM_REQUEST (R433, R434): a read of the line of an offset (no bytes), after which the host may hold the line, or a write, within
the decoder's range. It is served at the home slice at once, so that it wins a collision; a pending BISnp for the line stays to be answered
again. -/
def execCxlMemRequest (off : Nat) (bytes : List Byte) (s : State) : Host.Outcome State Fault Refusal :=
  let va := sharedVa off
  if hdmBytes ≤ off then .next s
  else match s.homeOf 0 16 va with
    | some (.local _) =>
      if bytes.isEmpty then
        let line := va / 128 * 128
        let t := s.hostRead line 128
        let held := if t.card.hostLines.contains (tagOf 0 line) then t.card.hostLines else tagOf 0 line :: t.card.hostLines
        .next ({ t with card := { t.card with hostLines := held } } : State).touchPower
      else if bytes.length ≤ 128 - va % 128 then .next (s.hostMerge va bytes).touchPower
      else .next s
    | _ => .next s

/-- BISNP_RESPONSE (R434): the BIRsp clears the host bit, and the held merge goes on. -/
def execBisnpResponse (line : Nat) (s : State) : Host.Outcome State Fault Refusal :=
  if s.card.snoops.contains line then
    .next ({ s with card := { s.card with
      snoops := s.card.snoops.filter fun l => l != line
      hostLines := s.card.hostLines.filter fun l => l != line } } : State).goOnReplaying
  else .next s

/-- HOST_SNOOP (R433): answered with a miss, whatever the address; nothing changes. -/
def execHostSnoop (_addr : Nat) (s : State) : Host.Outcome State Fault Refusal := .next s

/-- Whether a core's oldest store is under way to host memory, or to the peer. -/
def Core.sentTo (c : Core) (host : Bool) : Bool :=
  c.sent && match c.drain.head?.bind fun e => e.writes.head? with
    | some w => (c.apertureAt (tagVa w.tag)).isNone && match w.target with
      | .host _ => host
      | .peer => !host
      | .local _ => false
    | none => false

/-- CXL_CACHE_RESPONSE (R308): host memory accepts the store under way of a core, which performs there. -/
def execCxlCacheResponse (core : Nat) (s : State) : Host.Outcome State Fault Refusal :=
  match s.coreAt core with
  | some c => if c.sentTo true then .next (s.onCore core State.drainPerform) else .next s
  | none => .next s

/-- WINDOW_BASE_WRITE (R431): the base is an offset of the shared region. -/
def execWindowBaseWrite (value : Word) (s : State) : Host.Outcome State Fault Refusal :=
  .next ({ s with card := { s.card with windowBase := value &&& 0xFFFFFFFFFFFF#64 } } : State).touchPower

end Sys2Proof.Machine
end

