-- ==== Sys2Proof/Machine/PostEvents.lean ====
section
/-! DEFINITION. Events of posted work: the post queue (R124), reductions (R122), sketch units (R228-R230), gradient lanes (R246-R248),
messages (R252, R253, R418, R419), collectives (R256, R257), side logs (R337, R338). -/

namespace Sys2Proof.Machine

/-! ### Sending -/

/-- POST_QUEUE_SEND (R124): the head of the post queue of the core in focus is sent, once no older store that meets its range is
unperformed (R145), nor an older STL (R118). -/
def execPostQueueSend (s : State) : Host.Outcome State Fault Refusal :=
  match s.core.posts with
  | [] => .next s
  | p :: rest =>
    if s.core.releaseStore || s.ownStores.any (fun q => overlap p.range q) then .next s
    else .next (({ s with core := { s.core with posts := rest } } : State).sendPost p)

/-- A post leaves the ones under way. -/
def State.dropFlight (s : State) (i : Nat) : State := { s with card := { s.card with flight := s.card.flight.eraseIdx i } }

/-- Whether an older post of the same sender reaches the same target first (R124), or an older packet the same stop (R427). -/
def State.behind (s : State) (i : Nat) (p : Post) (same : Post → Bool) : Bool :=
  ((s.card.flight.take i).any fun q => sameStrand p.strand q.strand && same q) || s.postOvertaken p

/-- A post that a controller cannot perform is logged; while the log is full it stays under way (R332). -/
def State.logFlight (s : State) (i : Nat) (p : Post) (ctrl cause faddr : Nat) : State :=
  match (s.dropFlight i).logPost ctrl p cause faddr .pending with
  | (true, t) => t.countAbsent p.asid p.colour (cause / 64) (cause % 64) faddr
  | (false, t) => { t with card := { t.card with flight := s.card.flight } }

/-! ### Reductions -/

/-- RED_PERFORM (R122, R123, R334), with a line that has uncorrectable data, if there is one (R329). -/
def execRedPerform (post : Nat × Option Nat) (s : State) : Host.Outcome State Fault Refusal :=
  let index := post.1
  match s.card.flight[index]? with
  | none => .next s
  | some p =>
    match p.kind with
    | .red op type =>
      let ctrl := s.logController p
      if s.behind index p fun q => q.isRed && (s.logController q == ctrl || overlap p.range q.range) then .next s
      else if s.stashTarget p then .next ((s.dropFlight index).applyRed p op type)
      else if s.card.logFull ctrl p then .next s
      else if s.card.hasPending ctrl p then .next (s.logFlight index p ctrl 0 0)
      else match s.redFault p type, readCheck post.2 p.addr (redBytes type) with
        | some (b, d), _ => .next (s.logFlight index p ctrl (3 * 64 + d) b)
        | none, .error (cls, d, b) => .next (s.logFlight index p ctrl (cls * 64 + d) b)
        | none, .ok _ =>
          if s.peerWaits p then .next s
          else match s.heldBy ((s.dropFlight index).applyRed p op type) with
            | [] => .next ((s.dropFlight index).applyRed p op type)
            | lines => .next (s.snoop lines)
    | _ => .next s

/-! ### Sketch units -/

/-- SKETCH_OPERATION_BEGIN (R220, R228, R230): after every earlier operation of its strand on the record, with a line that has uncorrectable
data, if there is one (R329). The record that orders SKADD is xa, its destination (DESIGN CHOICE, log entry 65). -/
def execSketchOperationBegin (post : Nat × Option Nat) (s : State) : Host.Outcome State Fault Refusal :=
  let index := post.1
  match s.card.flight[index]? with
  | none => .next s
  | some p =>
    let same (q : Post) : Bool := q.isSketch && q.addr == p.addr
    let ctrl := s.logController p
    if !p.isSketch || s.behind index p same || s.card.jobs.any (fun j => sameStrand p.strand j.post.strand && same j.post) ||
      s.card.logFull ctrl p then .next s
    else if s.card.hasPending ctrl p then .next (s.logFlight index p ctrl 0 0)
    else match s.planSketch p post.2 with
      | .error (cls, d, b) => .next (s.logFlight index p ctrl (cls * 64 + d) b)
      | .ok plan =>
        let t := (s.dropFlight index).beginPlan p plan
        match s.heldBy t with
        | [] => .next { t with card := { t.card with jobs := t.card.jobs ++ [⟨p, plan.updates⟩] } }
        | lines => .next (s.snoop lines)

/-- The controller that holds a counter (R230, R361). -/
def State.counterController (s : State) (p : Post) (va : Nat) : Nat :=
  match s.homeOf p.asid p.colour va with
  | some (.local pa) => controllerOf pa
  | _ => 0

/-- COUNTER_APPLY (R230): a controller applies its part of an operation's counter updates, in their order (R220). -/
def execCounterApply (job controller : Nat) (s : State) : Host.Outcome State Fault Refusal :=
  match s.card.jobs[job]? with
  | none => .next s
  | some j =>
    let p := j.post
    let here (u : Nat × CounterOp) : Bool := s.counterController p u.1 == controller
    let mine := j.updates.filter here
    let t := mine.foldl (fun s u => s.applyUpdate p u) s
    match s.heldBy t with
    | [] => .next { t with card := { t.card with jobs := t.card.jobs.set job { j with updates := j.updates.filter fun u => !here u } } }
    | lines => .next (s.snoop lines)

/-- SKETCH_ACKNOWLEDGE (R230). -/
def execSketchAcknowledge (job : Nat) (s : State) : Host.Outcome State Fault Refusal :=
  match s.card.jobs[job]? with
  | some j => if j.updates.isEmpty then .next { s with card := { s.card with jobs := s.card.jobs.eraseIdx job } } else .next s
  | none => .next s

/-! ### Gradient lanes -/

/-- Whether two posts are pushes into one lane. -/
def Post.sameLane (p q : Post) : Bool :=
  match p.kind, q.kind with
  | .push a b, .push c d => a == c && b == d
  | _, _ => false

/-- The badger core of a push's queue runs a strand of another colour than its packet, and never accepts it (R428). -/
def State.pushForeign (s : State) (p : Post) (q : Nat) : Bool :=
  match (s.pushQueue p q).bind fun g => s.coreAt (256 + g.badger) with
  | some c => c.run == .running && c.colour.toNat != p.colour
  | none => false

/-- GRADIENT_ENTRY_ARRIVAL (R246, R247, R334). -/
def execGradientEntryArrival (index : Nat) (s : State) : Host.Outcome State Fault Refusal :=
  match s.card.flight[index]? with
  | none => .next s
  | some p =>
    match p.kind with
    | .push q _ =>
      let ctrl := s.logController p
      if s.behind index p p.sameLane || s.card.logFull ctrl p then .next s
      else if s.pushForeign p q then .next ((s.dropFlight index).mapService fun v => { v with fabricDrops := v.fabricDrops + 1 })
      else if s.card.hasPending ctrl p then .next (s.logFlight index p ctrl 0 0)
      else if s.secondSender p then
        match (s.dropFlight index).logPost ctrl p secondSenderCause 0 .discarded with
        | (true, t) => .next ((t.returnPush p).countDiscard p)
        | (false, t) => .next { t with card := { t.card with flight := s.card.flight } }
      else .next ((s.dropFlight index).landPush p)
    | _ => .next s

/-- WINDOW_COUNT_RETURN (R246, R248, R427): a count for a strand that is not placed waits until it is, or is dropped with its end. -/
def execWindowCountReturn (index : Nat) (s : State) : Host.Outcome State Fault Refusal :=
  match s.card.returns[index]? with
  | none => .next s
  | some r =>
    let t : State := { s with card := { s.card with returns := s.card.returns.eraseIdx index } }
    match s.contextOf r.strand with
    | some c =>
      if s.overtaken (r.stop, stopOf c.num) r.number then .next s
      else .next (t.setCore (c.setWindowCount r.queue r.lane ((c.windowCount r.queue r.lane).getD 0 + 1)))
    | none => match s.card.strandInfo (strandLaunch r.strand) (strandIndexOf r.strand) with
      | some i => if i.ended then .next t else .next s
      | none => .next t

/-! ### Messages -/

/-- A message on its way: its colour, the stop that sent it (the bridge's gateway for one from the peer), and the number of its packet on this
card, where it is one. -/
structure Due where
  msg : Message
  colour : Nat
  stop : Nat
  number : Option Nat
deriving DecidableEq, Repr

/-- The messages on their way: those from the peer, then those of this card's post queues. -/
def State.messagesDue (s : State) : List Due :=
  (s.card.messages.map fun m => ⟨m.1, m.2, 48, none⟩) ++ s.card.flight.filterMap fun p => match p.kind with
    | .message target => some ⟨⟨p.strand, target, p.oper, p.values.payload⟩, p.colour, stopOf p.core, some p.number⟩
    | _ => none

/-- The nth message leaves. -/
def State.dropMessage (s : State) (n : Nat) : State :=
  if n < s.card.messages.length then { s with card := { s.card with messages := s.card.messages.eraseIdx n } }
  else
    match ((s.card.flight.zipIdx).filter fun p => match p.1.kind with | .message _ => true | _ => false)[n - s.card.messages.length]? with
    | some p => s.dropFlight p.2
    | none => s

/-- One message of a sender has been accepted (R252): the sender may be on either card. -/
def State.accepted (s : State) (sender : Word) : State :=
  let one (c : Core) : Core := { c with unaccepted := c.unaccepted - 1 }
  match s.coreOf sender with
  | some c => s.setCore (one c)
  | none =>
    let cores := s.peer.cores.map fun c => if c.run == .running && sameStrand c.strand sender then one c else c
    { s with peer := { s.peer with cores := cores } }

/-- What a card does with a message (R253): a core takes it, its inbox is full, it is undeliverable for a reason, or the launch is not
the card's. -/
inductive Delivery where
  | inbox (core : Core)
  | full
  | foreign
  | undeliverable (reason : Nat)
  | unknown
deriving DecidableEq, Repr

/-- The fate of a message of a colour among cores and launches of a card (R253, R428). -/
def deliveryOf (cores : List Core) (launches : List Launch) (m : Message) (colour : Nat) : Delivery :=
  match cores.find? fun c => c.run == .running && sameStrand c.strand m.target with
  | some c =>
    if c.colour.toNat ≠ colour then .foreign
    else if strandIncarnation c.strand ≠ strandIncarnation m.target then .undeliverable 1
    else if c.isParked then .undeliverable 2
    else if 16 ≤ c.inbox.length then .full
    else .inbox c
  | none => if launches.any fun l => l.id == strandLaunch m.target then .undeliverable 2 else .unknown

/-- A message is undeliverable on the card in view. -/
def Card.refuseMessage (k : Card) (m : Message) (reason : Nat) : Card := { k with undeliverable := k.undeliverable ++ [(m, reason)] }

/-- A message from the peer comes before another one at the same stop, unless it waits there for room in the inbox already (R253, R427). -/
def State.gatewayFirst (s : State) (e d : Due) : Bool :=
  e.number.isNone && d.number.isNone && match s.targetCore e.msg.target, s.targetCore d.msg.target with
    | some a, some b => stopOf a.num == stopOf b.num && decide (a.inbox.length < 16)
    | _, _ => false

/-- The packet of a message has an older one between its stops before it (R427). -/
def State.messageOvertaken (s : State) (d : Due) : Bool :=
  match d.number, s.targetCore d.msg.target with
  | some n, some c => s.overtaken (d.stop, stopOf c.num) n
  | _, _ => false

/-- A message of the same sender to the same target, an undeliverable one too, stands before this one (R253), or one that left the same stop for
the same strand, or another packet between the same stops (R427). -/
def State.messageBehind (s : State) (n : Nat) (d : Due) : Bool :=
  let same (q : Message) : Bool := sameStrand q.sender d.msg.sender && sameStrand q.target d.msg.target
  (s.messagesDue.take n).any (fun e => same e.msg || e.stop == d.stop && sameStrand e.msg.target d.msg.target || s.gatewayFirst e d) ||
    s.messageOvertaken d || s.card.undeliverable.any (fun q => same q.1) || s.peer.undeliverable.any fun q => same q.1

/-- The nth message is taken from the way and put where `f` puts it. -/
def State.deliver1 (s : State) (n : Nat) (f : State → State) : State := f (s.dropMessage n)

/-- A message whose launch neither card knows, or whose colour does not match, is counted and dropped. -/
def State.deliverHere (s : State) (n : Nat) (m : Message) : Delivery → State
  | .inbox c => ((s.dropMessage n).setCore { c with inbox := c.inbox ++ [m] }).accepted m.sender
  | .full => s
  | .foreign => (s.dropMessage n).mapService fun v => { v with fabricDrops := v.fabricDrops + 1 }
  | .undeliverable r =>
    let t := s.dropMessage n
    { t with card := t.card.refuseMessage m r }
  | .unknown => ((s.dropMessage n).mapService fun v => { v with undeliverable := v.undeliverable + 1 }).accepted m.sender

/-- The same at the peer, across the bridge. -/
def State.deliverPeer (s : State) (n : Nat) (m : Message) : Delivery → State
  | .inbox c =>
    let t := s.dropMessage n
    let cores := t.peer.cores.map fun d => if d.num = c.num then { c with inbox := c.inbox ++ [m] } else d
    ({ t with peer := { t.peer with cores := cores } } : State).accepted m.sender
  | .foreign =>
    let t := s.dropMessage n
    { t with peer := { t.peer with service := { t.peer.service with fabricDrops := t.peer.service.fabricDrops + 1 } } }
  | .undeliverable r =>
    let t := s.dropMessage n
    { t with peer := t.peer.refuseMessage m r }
  | _ => s

/-- Whether the firmware of this card places a strand (R407, R408): a pair launch's other strands are the peer's. -/
def State.placesStrand (s : State) (strand : Word) : Bool := (s.card.strandInfo (strandLaunch strand) (strandIndexOf strand)).isSome

/-- MESSAGE_ARRIVAL (R253): at its target's core on this card, or across the bridge on the peer, under the colour bound to the
sender's. One that goes to the peer is held while the bridge is down (R443). -/
def execMessageArrival (index : Nat) (s : State) : Host.Outcome State Fault Refusal :=
  match s.messagesDue[index]? with
  | none => .next s
  | some d =>
    let m := d.msg
    if s.messageBehind index d then .next s
    else
      let here := deliveryOf (s.core :: s.card.cores) s.card.launches m d.colour
      let there := deliveryOf s.peer.cores s.peer.launches m (s.card.boundColour d.colour)
      let across : Bool := !s.placesStrand m.target && match here, there with
        | .undeliverable 2, .unknown => false
        | .undeliverable 2, _ => true
        | .unknown, .unknown => false
        | .unknown, _ => true
        | _, _ => false
      if !across then .next (s.deliverHere index m here)
      else if s.card.bridge.up then .next (s.deliverPeer index m there)
      else .next s

/-- An undeliverable queue entry (R418). -/
def undeliverableEntry (m : Message) (reason : Nat) : List Byte :=
  m.bytes ++ wordBytes (reason + (strandLaunch m.sender).toNat * 2 ^ 16 + strandIndexOf m.sender * 2 ^ 32) ++ List.replicate 56 0#8

/-- Counts of a launch's undeliverable messages (R415). -/
def Card.countUndelivered (k : Card) (id : BitVec 16) : Card := k.mapLaunch id fun l => { l with undelivered := l.undelivered + 1 }

/-- The firmware accepts an undeliverable message for its launch (R419), under the launch's ASID and colour (R466). -/
def State.acceptUndeliverable (s : State) (l : Launch) (m : Message) (reason : Nat) : State :=
  let q := l.word 5
  let asid := l.word 20 / 2 ^ 41 % 2 ^ 12
  let colour := l.word 20 / 2 ^ 10 % 2 ^ 4
  let word (i : Nat) : Nat := ofBytes (s.homeBytes asid colour (q + 8 * i) 8)
  let t : State := { s with card := s.card.countUndelivered l.id }
  if q = 0 then
    let ps := t.card.partitions.map fun p => if p.colour = colour then { p with dropped := p.dropped + 1 } else p
    { t with card := { t.card with partitions := ps } }
  else if word 0 - word 1 < word 2 then
    (t.writeHomeBytes asid colour (q + 64 + 128 * (word 0 % word 2)) (undeliverableEntry m reason)).writeHomeBytes asid colour q
      (wordBytes (word 0 + 1))
  else t.writeHomeBytes asid colour (q + 24) (wordBytes (word 3 + 1))

/-- UNDELIVERABLE_ACCEPT (R419): entries from one sender to one target keep their send order. -/
def execUndeliverableAccept (index : Nat) (s : State) : Host.Outcome State Fault Refusal :=
  match s.card.undeliverable[index]? with
  | none => .next s
  | some (m, reason) =>
    let first := !(s.card.undeliverable.take index).any fun q => q.1.sender == m.sender && q.1.target == m.target
    let t : State := { s with card := { s.card with undeliverable := s.card.undeliverable.eraseIdx index } }
    if !first then .next s
    else match s.card.launches.find? fun l => l.id == strandLaunch m.target with
      | some l => .next ((t.acceptUndeliverable l m reason).accepted m.sender)
      | none => .next ((t.mapService fun v => { v with undeliverable := v.undeliverable + 1 }).accepted m.sender)

/-! ### Collectives -/

/-- A collective takes a status. -/
def setStatus (l : List Collective) (k : Collective) (st : CollStatus) : List Collective :=
  l.map fun c => if c = k then { c with status := st } else c

/-- Both collectives of a pair are paired. -/
def State.markPair (s : State) (a b : Collective) (failed : Bool) : State :=
  { s with
    card := { s.card with colls := setStatus s.card.colls a (.paired failed) }
    peer := { s.peer with colls := setStatus s.peer.colls b (.paired failed) } }

/-- A strand's older sketch posts to a record have not all been applied (R256). -/
def State.sketchPending (s : State) (k : Collective) : Bool :=
  let mine (p : Post) : Bool := sameStrand p.strand k.strand && p.isSketch && p.addr == k.addr
  (s.card.flight.any mine) || (s.card.jobs.any fun j => mine j.post) ||
    ((s.core :: s.card.cores).any fun c => c.posts.any mine) ||
    s.card.sideLogs.any fun l => l.entries.any fun e => e.state == .pending && mine e.post

/-- The buffer of an LKRED, as the memory side checks it: mapped, permitted, in local HBM. -/
def State.bufferCheck (s : State) (k : Collective) (n : Nat) : Except UnitFault Unit :=
  if 2 ^ 52 < k.addr + 4 * n then .error (4, 1, k.addr) else s.areaCheck .atomic k.asid k.colour k.sup k.addr (4 * n)

/-- The buffer of an LKRED can be used (R257). -/
def State.bufferOk (s : State) (k : Collective) (n : Nat) : Bool := (s.bufferCheck k n).toOption.isSome

/-- The record of an LKSKADD, its array checked with it. -/
def State.pairCheck (s : State) (k : Collective) : Except UnitFault Record := do
  let r ← s.recordCheck .atomic k.asid k.colour k.sup none k.addr
  s.areaCheck .atomic k.asid k.colour k.sup r.base r.arrayBytes
  .ok r

/-- The record of an LKSKADD with its array, if they can be used (R257). -/
def State.pairRecord (s : State) (k : Collective) : Option Record := (s.pairCheck k).toOption

/-- The malformed entry at which a walk of a collective stops is counted (R384). -/
def State.countColl (s : State) (k : Collective) : State :=
  let failed : Option UnitFault := match k.kind with
    | .red n => match s.bufferCheck k n with | .error f => some f | .ok _ => none
    | .sketch => match s.pairCheck k with | .error f => some f | .ok _ => none
  match failed with
  | some f => s.countAbsent k.asid k.colour f.1 f.2.1 f.2.2
  | none => s

/-- The same on both cards. -/
def State.countPair (s : State) (a b : Collective) : State := ((s.countColl a).swap.countColl b).swap

/-- A change on both cards: it waits while either host may hold a line that it merges (R434). -/
def State.pairMerged (s t : State) : State :=
  match s.heldBy t, s.swap.heldBy t.swap with
  | [], [] => t
  | x, y => ((s.snoop x).swap.snoop y).swap

/-- The exchange of a pair (R256): the nth collective of a tag on each card. -/
def State.exchange (s : State) (a b : Collective) : State :=
  match a.kind, b.kind with
  | .red n, .red m =>
    if n ≠ m ∨ !s.bufferOk a n ∨ !s.swap.bufferOk b n then (s.countPair a b).markPair a b true
    else s.pairMerged ((s.reducePair s.card.bridge.cardZero a b n).markPair a b false)
  | .sketch, .sketch =>
    if s.sketchPending a || s.swap.sketchPending b then s
    else match s.pairRecord a, s.swap.pairRecord b with
      | some r, some q =>
        if !r.sameShape q then s.markPair a b true else s.pairMerged ((s.sketchPair a b r q).markPair a b false)
      | _, _ => (s.countPair a b).markPair a b true
  | _, _ => s.markPair a b true

/-- A strand's collectives leave its link queue in their order (R258). -/
def linkFirst (l : List Collective) (k : Collective) : Bool :=
  (l.takeWhile fun c => c != k).all fun c => !sameStrand c.strand k.strand || c.status != .pending

/-- COLLECTIVE_PAIRING (R256, R258): with the bridge down a collective ends in error (R443). -/
def execCollectivePairing (index : Nat) (s : State) : Host.Outcome State Fault Refusal :=
  match s.card.colls[index]? with
  | none => .next s
  | some a =>
    if a.status ≠ .pending ∨ !linkFirst s.card.colls a then .next s
    else if !s.card.bridge.up then .next { s with card := { s.card with colls := setStatus s.card.colls a (.paired true) } }
    else match s.peer.colls.find? fun b => b.tag == a.tag && b.ordinal == a.ordinal && b.status == .pending with
      | none => .next s
      | some b => if linkFirst s.peer.colls b then .next (s.exchange a b) else .next s

/-- COLLECTIVE_COMPLETE (R256, R257). -/
def execCollectiveComplete (index : Nat) (s : State) : Host.Outcome State Fault Refusal :=
  match s.card.colls[index]? with
  | none => .next s
  | some a => match a.status with
    | .paired failed =>
      let t : State := { s with card := { s.card with colls := setStatus s.card.colls a (if failed then .error else .done) } }
      .next (if failed then t.mapService fun v => { v with collErrors := v.collErrors + 1 } else t)
    | _ => .next s

/-! ### Side logs -/

/-- SIDE_LOG_DOORBELL (R337): a write to the doorbell line of a controller's log has reached L2; with a line that has uncorrectable data, if
there is one (R329). -/
def execSideLogDoorbell (controller : Nat × Option Nat) (colour : Nat) (s : State) : Host.Outcome State Fault Refusal :=
  if (s.card.sideLog controller.1 colour).rung then .next (s.replay controller.1 colour controller.2) else .next s

/-- SIDE_LOG_DISCARD (R333, R338): software has written state 0b11 to a pending entry. -/
def execSideLogDiscard (controller colour seq : Nat) (s : State) : Host.Outcome State Fault Refusal :=
  let l := s.card.sideLog controller colour
  match l.entries.find? fun e => e.seq == seq && e.state == .pending with
  | none => .next s
  | some e =>
    if e.marked then .next (s.discardEntry l e) else .next s

end Sys2Proof.Machine
end

