-- ==== Sys2Proof/Machine/HostRing.lean ====
section
/-! DEFINITION. The command interface (R435-R437): BAR0 registers, command and completion rings, and the commands on partitions, tokens,
counters, firmware and the bridge binding (R395, R422, R437, R446-R449). A command's operands stand in words 1 to 7 in the order in which
R437 lists them, one in each word (DESIGN CHOICE, log entry 19). -/

namespace Sys2Proof.Machine

/-! ### Rings -/

/-- A command as the firmware reads it: its code, its tag, whether its other header bits are zero, its eight words. -/
structure Command where
  code : Nat
  tag : Nat
  clean : Bool
  words : List Nat
deriving DecidableEq, Repr

/-- An operand: word i of the command. -/
def Command.op (c : Command) (i : Nat) : Nat := c.words.getD i 0

/-- A function whose last command has not completed takes no other (R436). -/
def State.functionBusy (s : State) (n : Nat) : Bool :=
  (s.fn n).busy.isSome || s.card.migrations.any (fun m => m.fn == n) || (s.card.regions.any fun r => r.reply.any fun p => p.1 == n) ||
    s.card.partitions.any fun p => p.reply.any fun q => q.1 == n

/-- The next command of a function's ring. -/
def State.nextCommand (s : State) (n : Nat) : Option Command :=
  let f := s.fn n
  if 17 ≤ n ∨ s.functionBusy n ∨ f.cprod = f.ccons then none
  else
    let a := f.cbase.toNat + 64 * (f.ccons.toNat % 2 ^ (f.lgsize.extractLsb' 0 4).toNat)
    let ws := (List.range 8).map fun i => s.hostWord (a + 8 * i)
    let h := ws.headD 0
    some ⟨h % 2 ^ 8, h / 2 ^ 16 % 2 ^ 16, h / 2 ^ 8 % 2 ^ 8 == 0 && h / 2 ^ 32 == 0, ws⟩

/-- The firmware takes a command from its ring. -/
def State.takeCommand (s : State) (n : Nat) : State :=
  let f := s.fn n
  s.setFn n { f with ccons := f.ccons + 1#32 }

/-- A completion (R436), and MSI-X vector 0. -/
def State.completeCommand (s : State) (n tag status value : Nat) : State :=
  let f := s.fn n
  let a := f.cqbase.toNat + 16 * (f.qprod.toNat % 2 ^ (f.lgsize.extractLsb' 4 4).toNat)
  (s.putHost a (wordBytes (tag * 2 ^ 16 + status) ++ wordBytes value)).setFn n
    { f with qprod := f.qprod + 1#32, interrupts := f.interrupts.set 0 (f.interrupts[0] + 1) }

/-- What a command comes to: its status and value now, or nothing yet. -/
structure Reply where
  status : Nat
  value : Nat
  later : Bool
  state : State
deriving DecidableEq, Repr

/-- The statuses of R436. -/
def State.done (s : State) (value : Nat) : Reply := ⟨0, value, false, s⟩
def State.malformed (s : State) : Reply := ⟨1, 0, false, s⟩
def State.notPermitted (s : State) : Reply := ⟨2, 0, false, s⟩
def State.refused (s : State) : Reply := ⟨3, 0, false, s⟩
def State.exhausted (s : State) : Reply := ⟨6, 0, false, s⟩
def State.reply (s : State) (status : Nat) : Reply := ⟨status, 0, false, s⟩

/-- The completion comes with a later event. -/
def State.replyLater (s : State) : Reply := ⟨0, 0, true, s⟩

/-- Commands with codes that R437 does not list complete as malformed; as many as the fuel at most. -/
def State.skipFrom : Nat → State → Nat → State
  | 0, s, _ => s
  | k + 1, s, n => match s.nextCommand n with
    | some c =>
      if 1 ≤ c.code ∧ c.code ≤ 0x13 then s
      else State.skipFrom k ((s.takeCommand n).completeCommand n c.tag 1 0) n
    | none => s

/-- The same for every command that stands in a function's ring. -/
def State.skipUnknown (s : State) (n : Nat) : State := State.skipFrom ((s.fn n).cprod - (s.fn n).ccons).toNat s n

/-- A firmware command of a function: taken when it is the next of its ring (R436). -/
def State.command (s : State) (n code : Nat) (f : Command → State → Reply) : Host.Outcome State Fault Refusal :=
  match s.nextCommand n with
  | none => .next s
  | some c =>
    if c.code ≠ code then .next s
    else
      let t := s.takeCommand n
      let r := if c.clean then f c t else t.malformed
      let u := if r.later then r.state else r.state.completeCommand n c.tag r.status r.value
      .next (u.skipUnknown n)

/-- COMMAND_DOORBELL (R435): cprod counts the commands written so far; a command wakes the package (R448). -/
def execCommandDoorbell (fn : Nat) (cprod : BitVec 32) (s : State) : Host.Outcome State Fault Refusal :=
  if 17 ≤ fn then .next s
  else .next (((s.setFn fn { s.fn fn with cprod := cprod }).touchPower).skipUnknown fn)

/-- A function's registers after a write of the host (R435): registers that only store; an unlisted offset ignores the write, and so does a listed
read-only one (ccons, qprod, evprod), of which R6 and R435 state nothing (DESIGN CHOICE, log entry 74). -/
def Function.write (f : Function) (off : Nat) (value : Word) : Function :=
  match off with
  | 0x00 => { f with cbase := value }
  | 0x08 => { f with cqbase := value }
  | 0x10 => { f with evbase := value }
  | 0x18 => { f with lgsize := value.setWidth 16 &&& 0x0FFF#16 }
  | 0x40 => { f with evcons := value.setWidth 32 }
  | _ => f

/-- COMMAND_REGISTER_WRITE (R435); a host access wakes the package (R448). -/
def execCommandRegisterWrite (fn off : Nat) (value : Word) (s : State) : Host.Outcome State Fault Refusal :=
  if 17 ≤ fn then .next s else .next (s.setFn fn ((s.fn fn).write off value)).touchPower

/-! ### Permission -/

/-- A virtual function names only its own colour (R437). -/
def ownColour (fn colour : Nat) : Bool := fn == 0 || fn == colour + 1

/-- The colour under which a function's command reaches the shared region (R466). -/
def commandColour (fn : Nat) : Nat := if fn = 0 then 16 else fn - 1

def Card.partition (k : Card) (colour : Nat) : Option Partition := k.partitions.find? fun p => p.colour == colour

/-- A partition takes a change. -/
def Card.mapPartition (k : Card) (colour : Nat) (f : Partition → Partition) : Card :=
  { k with partitions := k.partitions.map fun p => if p.colour = colour then f p else p }

def State.mapPartition (s : State) (colour : Nat) (f : Partition → Partition) : State := { s with card := s.card.mapPartition colour f }

/-- The partition to which an ASID is assigned. -/
def Card.asidOwner (k : Card) (asid : Nat) : Option Partition := k.partitions.find? fun p => decide (p.asidFirst ≤ asid) && decide (asid ≤ p.asidLast)

/-- A function names an ASID (R437): a virtual function one of its own, the physical function any. -/
def Card.ownAsid (k : Card) (fn asid : Nat) : Bool := fn == 0 || (k.asidOwner asid).any fun p => ownColour fn p.colour

/-! ### Tokens (R395) -/

def Partition.token (p : Partition) (t : Nat) : BitVec 32 := BitVec.ofNat 32 (((p.tokens.find? fun q => q.1 == t).map Prod.snd).getD 0)

/-- Tokens are listed while their count is not 0. -/
def Partition.setToken (p : Partition) (t : Nat) (v : BitVec 32) : Partition :=
  let rest := p.tokens.filter fun q => q.1 != t
  { p with tokens := if v = 0#32 then rest else (rest.filter fun q => decide (q.1 < t)) ++ (t, v.toNat) :: rest.filter fun q => decide (t < q.1) }

/-- A wait is met (R395). -/
def tokenMet (count target : BitVec 32) : Bool := decide (0 ≤ (count - target).toInt)

/-- The colour that a token command names: a virtual function's own; the physical function names one in the word after the two operands
(R437, DESIGN CHOICE, log entry 19). -/
def Command.tokenColour (c : Command) (fn : Nat) : Nat := if fn = 0 then c.op 3 else fn - 1

/-- A command on a token of a partition (R437). -/
def State.tokenCommand (s : State) (fn : Nat) (c : Command) (f : Partition → Partition) : Reply :=
  let t := c.op 1
  if t = 0 ∨ 4095 < t ∨ 2 ^ 32 ≤ c.op 2 ∨ 16 ≤ c.tokenColour fn then s.malformed
  else match s.card.partition (c.tokenColour fn) with
    | none => s.refused
    | some _ => (s.mapPartition (c.tokenColour fn) f).done 0

/-- SIGNAL. -/
def execSignalToken (fn : Nat) (s : State) : Host.Outcome State Fault Refusal :=
  s.command fn 0x0C fun c s => s.tokenCommand fn c fun p => p.setToken (c.op 1) (p.token (c.op 1) + BitVec.ofNat 32 (c.op 2))

/-- SET_TOKEN. -/
def execSetToken (fn : Nat) (s : State) : Host.Outcome State Fault Refusal :=
  s.command fn 0x0D fun c s => s.tokenCommand fn c fun p => p.setToken (c.op 1) (BitVec.ofNat 32 (c.op 2))

/-- WAIT: the function takes no other command until the wait is met. -/
def execWaitToken (fn : Nat) (s : State) : Host.Outcome State Fault Refusal :=
  s.command fn 0x0E fun c s =>
    let r := s.tokenCommand fn c id
    if r.status ≠ 0 then r
    else (s.setFn fn { s.fn fn with busy := some (c.tag, c.tokenColour fn, c.op 1, c.op 2) }).replyLater

/-- WAIT_MET (R395, R437). -/
def execWaitMet (fn : Nat) (s : State) : Host.Outcome State Fault Refusal :=
  match (s.fn fn).busy with
  | none => .next s
  | some (tag, colour, token, target) =>
    match s.card.partition colour with
    | none => .next s
    | some p =>
      if tokenMet (p.token token) (BitVec.ofNat 32 target) then
        .next (((s.setFn fn { s.fn fn with busy := none }).completeCommand fn tag 0 0).skipUnknown fn)
      else .next s

/-! ### Partitions -/

/-- SET_PATIENCE (R422). -/
def execSetPatience (fn : Nat) (s : State) : Host.Outcome State Fault Refusal :=
  s.command fn 0x13 fun c s =>
    if 16 ≤ c.op 1 then s.malformed
    else if !ownColour fn (c.op 1) then s.notPermitted
    else match s.card.partition (c.op 1) with
      | none => s.refused
      | some _ => (s.mapPartition (c.op 1) fun p => { p with patience := c.op 2 }).done 0

/-- The ASID whose context entry begins at an offset of HBM. -/
def contextSlot (a : Nat) : Option Nat :=
  let lo := contextAddress 0
  let n := controllerAddress a - controllerAddress lo
  if lo ≤ a ∧ controllerOf a = 0 ∧ n % 16 = 0 then some (n / 16) else none

/-- HBM that tables, side logs and the firmware's granules take, and where one of n bytes aligned to 2^lg goes: the firmware's own choice
when it is free, else the first place above every table but below the firmware's granules (DESIGN CHOICE, log entry 25). -/
def Card.tableRanges (k : Card) : List (Nat × Nat) :=
  (k.partitions.flatMap fun p => p.tables.map fun t => (t.1, t.1 + t.2)) ++ k.ownTables.map (fun t => (t.1, t.1 + t.2)) ++
    ((k.partitions.filter fun p => p.logs != 0).map fun p => (p.logs, p.logs + 2 ^ 24)) ++
    (k.hbm.filterMap fun c => ((contextSlot c.1).bind k.context).map fun x => (x.root, x.root + 32768)) ++
    [(firmwareGranule * 65536, hbmBytes)]

def Card.tablePlace (k : Card) (n lg choice : Nat) : Option Nat :=
  let a := choice % 2 ^ 46 / 2 ^ lg * 2 ^ lg
  let fits (a : Nat) : Bool := decide (a + n ≤ hbmBytes) && k.tableRanges.all fun r => !overlap r (a, a + n)
  let top := (k.tableRanges.filter fun r => decide (r.2 < hbmBytes)).foldl (fun m r => max m r.2) 0
  let b := (top + 2 ^ lg - 1) / 2 ^ lg * 2 ^ lg
  if fits a then some a else if fits b then some b else none

/-- An ASID gets a level-4 table without entries. -/
def Card.addAsid (k : Card) (asid colour choice : Nat) : Card :=
  match k.tablePlace 32768 15 choice with
  | none => k
  | some a => { k with hbm := clearBytes k.hbm a 32768 }.setContext asid colour a

/-! ### The bridge binding (R437, R442) -/

/-- A port after training. -/
def Port.train (p : Port) : Port :=
  if p.working then
    { p with retraining := false, nextSeq := 0, expected := 0, replay := [], wire := [], slots := [], outbox := [], unacked := 0,
             trainings := p.trainings + 1 }
  else p

/-- Training on one card (R442): the collective counts start again, and collectives without a partner end in error. A store that is under way
stays so, in its ordering domain. -/
def Card.train (k : Card) (up zero : Bool) : Card :=
  { k with
    bridge := ⟨up, zero, k.bridge.ports.map Port.train, k.bridge.domains⟩
    tagCounts := Vector.replicate 16 0
    colls := k.colls.map fun c => if c.status = .pending then { c with status := .paired true } else c }

/-- The bridge trains (R442): it is up when both cards have a working port; the package with the lower serial number becomes card 0.
Replays that wait for the bridge go on. -/
def State.train (s : State) : State :=
  let works (k : Card) : Bool := k.bridge.ports.toList.any fun p => p.working
  let up := works s.card && works s.peer
  let zero := decide (s.card.serial < s.peer.serial)
  let t : State := { s with card := s.card.train up zero, peer := s.peer.train up !zero }
  if up then t.goOnReplaying.onPeer State.goOnReplaying else t

/-- BIND_BRIDGE (R437, R442). -/
def execBindBridge (fn : Nat) (s : State) : Host.Outcome State Fault Refusal :=
  s.command fn 0x12 fun c s =>
    if fn ≠ 0 then s.notPermitted
    else if 16 ≤ c.op 1 ∨ 16 ≤ c.op 2 then s.malformed
    else match s.card.partition (c.op 1) with
      | none => s.refused
      | some _ => ((s.mapPartition (c.op 1) fun p => { p with peerColour := some (c.op 2) }).train).done 0

/-! ### Counters -/

/-- The 64-bit counters of a selector (R449). -/
def Card.counters (k : Card) (selector : Nat) : List Nat :=
  let v := k.service
  match selector with
  | 1 => (List.range 11).map fun i => countAt v.corrected i
  | 2 => [v.fabricDrops]
  | 3 => k.bridge.ports.toList.flatMap fun p => [p.failed, p.replayed, p.refused, p.degrades, p.trainings]
  | 4 => [v.copyErrors, v.collErrors]
  | 5 => [v.storesDropped]
  | 6 => [v.lostEvents]
  | _ => [v.pacedClocks, v.clockSteps]

/-- A region's hotness in an octant: the sum over the controllers, saturated to 16 bits (R391). -/
def Card.hotness (k : Card) (region octant : Nat) : Nat :=
  min 0xFFFF ((List.range 16).map fun m => k.hotCount m region octant).sum

/-- The counters of a region read 0. -/
def Card.clearHot (k : Card) (region : Nat) : Card :=
  (List.range 16).foldl (fun k m => (List.range 8).foldl (fun k o => k.setHot m region o 0) k) k

/-- The 16 bytes of a region's hotness, octants 0 to 7. -/
def Card.hotEntry (k : Card) (region : Nat) : List Byte := (List.range 8).flatMap fun o => toBytes 2 (k.hotness region o)

/-- Selector 0: the list holds a region number in word 0 of each 16-byte entry, and its counters take its place; they are cleared. -/
def State.queryHot (s : State) (colour list : Nat) : Nat → State
  | 0 => s
  | n + 1 =>
    let t := s.queryHot colour list n
    let a := list + 16 * n
    let r := ofBytes (t.homeBytes 0 colour a 8)
    let u := t.writeHomeBytes 0 colour a (t.card.hotEntry r)
    { u with card := u.card.clearHot r }

/-- QUERY_COUNTERS (R437, R449): selector, list address in the shared region, count. -/
def execQueryCounters (fn : Nat) (s : State) : Host.Outcome State Fault Refusal :=
  s.command fn 0x0F fun c s =>
    let colour := commandColour fn
    let list := c.op 2
    let regions := (List.range (c.op 3)).map fun i => ofBytes (s.homeBytes 0 colour (list + 16 * i) 8)
    if 7 < c.op 1 ∨ !shared list ∨ 2 ^ 52 ≤ list + 16 * c.op 3 then s.malformed
    else if c.op 1 = 0 then
      if regions.any fun r => decide (137330 ≤ r) then s.malformed else (s.queryHot colour list (c.op 3)).done (c.op 3)
    else
      let vs := ((s.card.counters (c.op 1)).take (c.op 3)).map fun v => min v (2 ^ 64 - 1)
      (s.writeHomeBytes 0 colour list (vs.flatMap wordBytes)).done vs.length

/-! ### Firmware and attestation -/

/-- UPDATE_FIRMWARE (R446): host address and length of an image. A region that claims to replace a ROM routine is rejected with either
status. -/
def execUpdateFirmware (fn : Nat) (s : State) : Host.Outcome State Fault Refusal :=
  s.command fn 0x10 fun c s =>
    let image := readBytes s.host.mem (c.op 1) (c.op 2)
    if fn ≠ 0 then s.notPermitted
    else if !Config.signatureValid image then s.reply 4
    else if Config.imageVersion image < Config.rollbackCount then s.reply 5
    else if Config.replacesRom image then s.reply (if Config.choice s.draws % 2 = 0 then 4 else 5)
    else ({ s with card := { s.card with firmware := ⟨Config.imageVersion image, image⟩ } } : State).done 0

/-- Bytes that the firmware produces: the nth text of a turn (DESIGN CHOICE, log entry 17). -/
def firmwareText (draw len : Nat) : List Byte := (List.range len).map fun i => Config.firmwareByte (2 * draw) i

/-- A row of the partition table (R437): colour, masks, ASID range, quota, peer colour. -/
def Partition.bytes (p : Partition) : List Byte :=
  [p.colour, p.clusters.toNat, p.badgers.toNat, p.channels.toNat, p.asidFirst + p.asidLast * 2 ^ 16, p.quota, p.peerColour.getD 16].flatMap
    wordBytes

/-- The measurements (R447): ROM digest, digest and version of the update region, fused rollback count, partition table. The digests are
the firmware's, the table's form is the model's (DESIGN CHOICE, log entry 17). -/
def State.measurements (s : State) : List (List Byte) :=
  [(List.range 64).map (Config.firmwareByte 3), (List.range 64).map (Config.regionDigest s.card.firmware.region),
    toBytes 8 s.card.firmware.version, toBytes 8 Config.rollbackCount, s.card.partitions.flatMap Partition.bytes]

/-- The report of the measurements signed over a nonce. -/
def State.signedReport (s : State) (nonce : List Byte) : List Byte :=
  (List.range (Config.reportLength s.measurements)).map (Config.signedReport nonce s.measurements)

/-- ATTEST (R447): nonce in words 1 to 4, host address in word 5. -/
def execAttest (fn : Nat) (s : State) : Host.Outcome State Fault Refusal :=
  s.command fn 0x11 fun c s =>
    (s.putHost (c.op 5) (s.signedReport ((List.range 4).flatMap fun i => wordBytes (c.op (i + 1))))).done 0

end Sys2Proof.Machine
end

