-- ==== Sys2Proof/Machine/HostMemory.lean ====
section
/-! DEFINITION. The commands on page tables (R386, R387, R468): MAP, UNMAP, REMAP, MIGRATE; and PARTITION (R332, R381, R437). -/

namespace Sys2Proof.Machine

/-! ### Tables -/

/-- The entries of a table at a level (R382). -/
def tableEntries (level : Nat) : Nat :=
  match level with
  | 4 => 4096
  | 3 => 512
  | 2 => 1024
  | _ => 32

/-- The address field of an entry. -/
def entryAddr (e : Word) : Nat := (e.extractLsb' 8 40).toNat * 256

/-- A present entry that the walker accepts: some true for a leaf, some false for a table. -/
def liveEntry (level : Nat) (e : Word) : Option Bool :=
  if !e.getLsbD 0 || malformedEntry level e then none else some (e.getLsbD 1)

/-- A non-leaf entry. -/
def tableEntry (a : Nat) : Word := BitVec.ofNat 64 (a + 1)

/-- Whether a table holds any present entry (R383, R468). -/
def Card.holdsEntry (k : Card) (level t : Nat) : Bool :=
  (List.range (tableEntries level)).any fun i => (k.entryAt (t + 8 * i)).getLsbD 0

/-- The tables from one down. -/
def Card.tablesBelow (k : Card) : List Nat → Nat → List Nat
  | [], _ => []
  | level :: rest, t => t :: (List.range (tableEntries level)).flatMap fun i =>
      match liveEntry level (k.entryAt (t + 8 * i)) with
      | some false => k.tablesBelow rest (entryAddr (k.entryAt (t + 8 * i)))
      | _ => []

/-- The partition that pays for the tables of an ASID: none for ASID 0, whose tables are the firmware's. -/
def Card.payer (k : Card) (asid : Nat) : Option Nat := (k.asidOwner asid).map Partition.colour

/-- A new table, zeroed, from the partition's quota (R468). -/
def Card.newTable (k : Card) (asid level choice : Nat) : Option (Nat × Card) :=
  let n := 8 * tableEntries level
  let lg := tableLg (level + 1)
  match k.tablePlace n lg choice with
  | none => none
  | some a =>
    let k' := { k with hbm := clearBytes k.hbm a n }
    match k.payer asid with
    | none => if asid = 0 then some (a, { k' with ownTables := k.ownTables ++ [(a, n)] }) else none
    | some c => match k.partition c with
      | none => none
      | some p =>
        if p.quota < (p.tables.map Prod.snd).foldl (· + ·) 0 + n then none
        else some (a, k'.mapPartition c fun p => { p with tables := p.tables ++ [(a, n)] })

/-- Tables leave their partition, and the walkers' copies of the entry that named them are dropped. -/
def Card.freeTables (k : Card) (ts : List Nat) (entry : Nat) : Card :=
  { k with
    partitions := k.partitions.map fun p => { p with tables := p.tables.filter fun t => !ts.contains t.1 }
    ownTables := k.ownTables.filter fun t => !ts.contains t.1
    walkCache := k.walkCache.filter fun w => w.addr != entry && !ts.any fun t => decide (t ≤ w.addr) && decide (w.addr < t + 8192) }

/-- Whether a new leaf only adds permissions to an old one (R468). -/
def widens (old new : Word) : Bool :=
  let keep (e : Word) : Word := e &&& ~~~(0x1C#64)
  keep old == keep new && (old &&& new &&& 0x1C#64) == (old &&& 0x1C#64)

/-- The leaf is written at its level (R468), or the status. -/
def Card.putLeaf (k : Card) (level a : Nat) (leaf : Word) : Except Nat Card :=
  let e := k.entryAt a
  match liveEntry level e with
  | none => .ok (k.putEntryAt a leaf)
  | some true => if widens e leaf then .ok (k.putEntryAt a leaf) else .error 3
  | some false =>
    if k.holdsEntry (level - 1) (entryAddr e) then .error 3 else .ok ((k.putEntryAt a leaf).freeTables [entryAddr e] a)

/-- The walk to the named level, with missing tables created (R468). -/
def Card.mapWalk (k : Card) (asid target : Nat) (leaf : Word) (va choice : Nat) : List Nat → Nat → Except Nat Card
  | [], _ => .error 3
  | level :: rest, t =>
    let a := t + 8 * levelIndex level va
    if level = target then k.putLeaf level a leaf
    else match liveEntry level (k.entryAt a) with
      | some true => .error 3
      | some false => k.mapWalk asid target leaf va choice rest (entryAddr (k.entryAt a))
      | none => match k.newTable asid (level - 1) choice with
        | none => .error 6
        | some (u, k') => (k'.putEntryAt a (tableEntry u)).mapWalk asid target leaf va choice rest u

/-! ### Shoot-down -/

/-- A page of a command: its base, its size as a power of two, the level and address of its leaf entry. -/
structure Page where
  va : Nat
  lg : Nat
  level : Nat
  entry : Nat
deriving DecidableEq, Repr

/-- Whether a tagged byte lies in a page of an ASID. -/
def Page.holds (p : Page) (asid tag : Nat) : Bool :=
  tagAsid tag == asid && decide (p.va ≤ tagVa tag) && decide (tagVa tag < p.va + 2 ^ p.lg)

def inPages (ps : List Page) (asid tag : Nat) : Bool := ps.any fun p => p.holds asid tag

/-- TLB entries for pages: a page of the TLB meets a page of the command. -/
def meetsPage (ps : List Page) (page lg : Nat) : Bool :=
  ps.any fun p => overlap (page * 2 ^ lg, (page + 1) * 2 ^ lg) (p.va, p.va + 2 ^ p.lg)

/-- Every core of the card takes a change. -/
def State.mapCores (s : State) (f : Core → Core) : State := { s with core := f s.core, card := { s.card with cores := s.card.cores.map f } }

/-- Matching entries leave every permission TLB and all memory-side TLBs (R386 step 1). -/
def State.dropUnitTlb (s : State) (asid : Nat) (ps : List Page) : State :=
  { s with card := { s.card with unitTlb := s.card.unitTlb.filter fun e => !(e.asid == asid && meetsPage ps e.page e.leaf.lg) } }

def State.shootDown (s : State) (asid : Nat) (ps : List Page) : State :=
  (s.dropUnitTlb asid ps).mapCores fun c => { c with tlb := c.tlb.filter fun e => !(e.asid == asid && meetsPage ps e.page e.lg) }

/-- Whether a store drain of the card holds bytes of the pages (R386 step 2). -/
def State.drainHolds (s : State) (asid : Nat) (ps : List Page) : Bool :=
  (s.core :: s.card.cores).any fun c => c.drain.any fun e => e.writes.any fun w =>
    inPages ps asid w.tag || inPages ps asid (w.tag + w.bytes.length - 1)

/-- Dirty cluster-cache lines of the pages that the host may hold (R434). -/
def State.pagesHeld (s : State) (asid : Nat) (ps : List Page) : List Nat :=
  (s.card.clusters.toList.flatMap Cluster.lines).filterMap fun l =>
    if inPages ps asid l.tag && l.dmask != 0#128 && s.card.hostLines.contains l.tag then some l.tag else none

/-- Dirty bytes go from the cluster caches to L2 and from L2 to HBM, and the pages' lines are discarded (R386 step 2). -/
def State.flushPages (s : State) (asid colour : Nat) (ps : List Page) : State :=
  let t := (List.range 32).foldl (fun s k =>
    ((s.clusterAt k).lines.filter fun l => inPages ps asid l.tag).foldl (fun s l =>
      let u := s.writeBackLine k colour l.tag
      u.setCluster k ((u.clusterAt k).evict l.tag)) s) s
  let k := (t.card.l2.filter fun l => inPages ps asid l.tag).foldl (fun k l => k.evictL2 l.tag) t.card
  ({ t with card := k } : State).mapCores fun c => { c with icache := c.icache.filter fun l => !inPages ps asid l.tag }

/-! ### MAP -/

/-- The context of the ASID whose tables a command edits; ASID 0 gets its own at its first use by the firmware. -/
def Card.withContext (k : Card) (asid choice : Nat) : Option (AsidContext × Card) :=
  match k.context asid with
  | some c => some (c, k)
  | none =>
    if asid = 0 then
      let k' := k.addAsid 0 0 choice
      (k'.context 0).map fun c => (c, k')
    else none

/-- A leaf operand for a level (R468). -/
def leafOk (level : Nat) (e : Word) : Bool := e.getLsbD 0 && e.getLsbD 1 && !e.getLsbD 7 && !malformedEntry level e

/-- Every log of a partition is to be replayed (R337): the firmware's map command made a page of it present. Each replay goes on as a
doorbell's does, which may meet uncorrectable data (R329). -/
def State.replayPartition (s : State) (colour : Nat) : State :=
  { s with card := { s.card with sideLogs := s.card.sideLogs.map fun l => if l.colour = colour then { l with rung := true } else l } }

/-- MAP (R437, R468): ASID, VA, level, leaf. -/
def execMapPages (fn : Nat) (s : State) : Host.Outcome State Fault Refusal :=
  s.command fn 0x03 fun c s =>
    let asid := c.op 1
    let va := c.op 2
    let level := c.op 3
    let leaf : Word := BitVec.ofNat 64 (c.op 4)
    if 4096 ≤ asid ∨ 2 ^ 52 ≤ va ∨ level = 0 ∨ 3 < level ∨ va % 2 ^ pageLg level ≠ 0 ∨ !leafOk level leaf then s.malformed
    else if !s.card.ownAsid fn asid then s.notPermitted
    else match s.card.withContext asid (Config.choice s.draws) with
      | none => s.refused
      | some (x, k) => match k.mapWalk asid level leaf va (Config.choice s.draws) [4, 3, 2, 1] x.root with
        | .error e => s.reply e
        | .ok k' =>
          let t := ({ s with card := k' } : State).shootDown asid [⟨va, pageLg level, level, 0⟩]
          let colours := if asid = 0 then t.card.partitions.map Partition.colour else (t.card.payer asid).toList
          (colours.foldl State.replayPartition t).done 0

/-! ### UNMAP, REMAP, MIGRATE -/

/-- The leaf of an address. -/
def Card.leafAt (k : Card) (va : Nat) : List Nat → Nat → Option Page
  | [], _ => none
  | level :: rest, t =>
    let a := t + 8 * levelIndex level va
    match liveEntry level (k.entryAt a) with
    | some true => some ⟨va, pageLg level, level, a⟩
    | some false => k.leafAt va rest (entryAddr (k.entryAt a))
    | none => none

/-- The pages of a command (R468): each with a leaf, or a 64 KiB page passed over. None when one is not aligned to its size, or passes the
end of the address space. -/
def Card.pagesFrom (k : Card) (root : Nat) : Nat → Nat → Option (List (Nat × Option Page))
  | 0, _ => some []
  | n + 1, va =>
    if 2 ^ 52 ≤ va then none
    else match k.leafAt va [4, 3, 2, 1] root with
      | none => if va % 2 ^ 16 = 0 then (k.pagesFrom root n (va + 2 ^ 16)).map fun l => (2 ^ 16, none) :: l else none
      | some p =>
        if va % 2 ^ p.lg = 0 then (k.pagesFrom root n (va + 2 ^ p.lg)).map fun l => (2 ^ p.lg, some p) :: l else none

/-- The new leaves of a remap: the operand's address for the first page, advanced by each page's size. -/
def remapLeaves (leaf : Word) : List (Nat × Option Page) → List (Page × Word)
  | [] => []
  | (n, p) :: rest =>
    let next := remapLeaves (leaf + BitVec.ofNat 64 n) rest
    match p with
    | some p => (p, leaf) :: next
    | none => next

/-- What UNMAP and REMAP share: the operands, the wait for the drains, the shoot-down, and what is then written for the pages. -/
def State.changePages (s : State) (fn : Nat) (c : Command) (f : List (Nat × Option Page) → Option (List (Page × Word))) : Option Reply :=
  let asid := c.op 1
  if 4096 ≤ asid ∨ 2 ^ 52 ≤ c.op 2 ∨ 2 ^ 36 < c.op 3 then some s.malformed
  else if !s.card.ownAsid fn asid then some s.notPermitted
  else match s.card.context asid with
    | none => some s.refused
    | some x => match s.card.pagesFrom x.root (c.op 3) (c.op 2) with
      | none => some s.malformed
      | some l => match f l with
        | none => some s.malformed
        | some ws =>
          let ps := l.filterMap Prod.snd
          if s.drainHolds asid ps || s.card.migrations.any (fun m => meetsPage ps (m.va / 2 ^ m.lg) m.lg) then none
          else match s.pagesHeld asid ps with
            | _ :: _ => none
            | [] =>
              let t := (s.shootDown asid ps).flushPages asid x.colour.toNat ps
              some (({ t with card := ws.foldl (fun k p => k.putEntryAt p.1.entry p.2) t.card } : State).done 0)

/-- A command that stands until the drains and the host let it go on: the firmware has not taken it yet. -/
def State.commandOr (s : State) (n code : Nat) (lines : Command → List Nat) (f : Command → State → Option Reply) :
    Host.Outcome State Fault Refusal :=
  match s.nextCommand n with
  | none => .next s
  | some c => match f c s with
    | none => if c.code = code then .next (s.snoop (lines c)) else .next s
    | some _ => s.command n code fun c t => (f c t).getD t.malformed

/-- The host-held lines of a command's pages. -/
def State.commandHeld (s : State) (c : Command) : List Nat :=
  match s.card.context (c.op 1) with
  | none => []
  | some x => match s.card.pagesFrom x.root (c.op 3) (c.op 2) with
    | none => []
    | some l => s.pagesHeld (c.op 1) (l.filterMap Prod.snd)

/-- UNMAP (R386, R468): ASID, VA, page count; leaf entries are cleared, and tables stay. -/
def execUnmapPages (fn : Nat) (s : State) : Host.Outcome State Fault Refusal :=
  s.commandOr fn 0x04 s.commandHeld fun c s =>
    s.changePages fn c fun l => some ((l.filterMap Prod.snd).map fun p => (p, 0#64))

/-- REMAP (R386, R468): ASID, VA, page count, leaf. -/
def execRemapPages (fn : Nat) (s : State) : Host.Outcome State Fault Refusal :=
  s.commandOr fn 0x05 s.commandHeld fun c s =>
    s.changePages fn c fun l =>
      let ws := remapLeaves (BitVec.ofNat 64 (c.op 4)) l
      if leafOk 1 (BitVec.ofNat 64 (c.op 4)) && ws.all fun p => leafOk p.1.level p.2 then some ws else none

/-- One step of a function's migration; the command completes with the fourth. -/
def State.migrate (s : State) (m : Migration) : State :=
  let t : State := { s with card := s.card.stepMigration m }
  if m.steps < 3 then t
  else
    let u : State := { t with card := { t.card with migrations := t.card.migrations.filter fun n => n.fn != m.fn } }
    (u.completeCommand m.fn m.reply 0 0).skipUnknown m.fn

/-- MIGRATE (R387): ASID, VA, new physical address of a page in local HBM. The event takes the command, and then performs one of its four
steps at a time. -/
def execMigrate (fn : Nat) (s : State) : Host.Outcome State Fault Refusal :=
  match s.card.migrations.find? fun m => m.fn == fn with
  | some m => .next (s.migrate m)
  | none => s.command fn 0x06 fun c s =>
    let asid := c.op 1
    if 4096 ≤ asid ∨ 2 ^ 52 ≤ c.op 2 then s.malformed
    else if !s.card.ownAsid fn asid then s.notPermitted
    else match (s.card.context asid).bind fun x => s.card.leafAt (c.op 2) [4, 3, 2, 1] x.root with
      | none => s.refused
      | some q =>
        let p : Page := { q with va := q.va / 2 ^ q.lg * 2 ^ q.lg }
        let e := s.card.entryAt p.entry
        let pa := entryAddr (e &&& ~~~(0x80#64))
        if c.op 3 % 2 ^ p.lg ≠ 0 ∨ hbmBytes < c.op 3 + 2 ^ p.lg then s.malformed
        else if e.getLsbD 7 = true ∨ hbmBytes < pa + 2 ^ p.lg ∨ overlap (pa, pa + 2 ^ p.lg) (c.op 3, c.op 3 + 2 ^ p.lg) = true then s.refused
        else
          let m : Migration := ⟨fn, c.tag, asid, p.va, p.entry, pa, c.op 3, p.lg, 0⟩
          ({ s with card := { s.card with migrations := s.card.migrations ++ [m] } } : State).replyLater

/-! ### PARTITION -/

/-- An ASID that a partition loses: its context entry, its tables and its TLB entries go. -/
def State.dropAsid (s : State) (asid : Nat) : State :=
  match s.card.context asid with
  | none => s
  | some x =>
    let k := (s.card.freeTables (s.card.tablesBelow [4, 3, 2, 1] x.root) 0).dropContext asid
    let t : State := { s with card := { k with unitTlb := k.unitTlb.filter fun e => e.asid != asid } }
    t.mapCores fun c => { c with tlb := c.tlb.filter fun e => e.asid != asid }

/-- The ASIDs of a range. -/
def asidRange (lo hi : Nat) : List Nat := (List.range (hi + 1 - lo)).map fun i => lo + i

/-- The ASIDs of a partition are assigned to it, and those that it had before no longer (R364, R381). -/
def State.assignAsids (s : State) (old : Option Partition) (p : Partition) (choice : Nat) : State :=
  let before := (old.map fun q => asidRange q.asidFirst q.asidLast).getD []
  let t := (before.filter fun a => decide (a < p.asidFirst) || decide (p.asidLast < a)).foldl State.dropAsid s
  let k := (asidRange p.asidFirst p.asidLast).foldl
    (fun k a => if (k.context a).isSome then k else k.addAsid a p.colour choice) t.card
  { t with card := k }

/-- The leaf of a part of a colour's log window (R332): r, w and sup, and of cmask only the colour's bit. -/
def logLeaf (colour pa : Nat) : Word := BitVec.ofNat 64 (2 ^ (48 + colour) + pa + 0x2F)

/-- The side logs of a partition get HBM, zeroed, and their mapping in the shared region (R332); none when HBM or tables lack room. -/
def Card.giveLogs (k : Card) (colour choice : Nat) : Option (Nat × Card) :=
  match k.withContext 0 choice with
  | none => none
  | some (x, k) => match k.tablePlace (2 ^ 24) 21 choice with
  | none => none
  | some a =>
    let held : Card := { k with hbm := clearBytes k.hbm a (2 ^ 24), ownTables := k.ownTables ++ [(a, 2 ^ 24)] }
    match (List.range 8).foldlM (fun k i => Card.mapWalk k 0 2 (logLeaf colour (a + i * 2 ^ 21)) (sideLogVa 0 colour + i * 2 ^ 21) choice
        [4, 3, 2, 1] x.root) held with
    | .ok k' => some (a, { k' with ownTables := k'.ownTables.erase (a, 2 ^ 24) })
    | .error _ => none

/-- A partition that has nothing yet but its colour; its pre-emption patience is 2^20 clocks (R422). -/
def Partition.fresh (colour : Nat) : Partition :=
  ⟨colour, 0, 0, 0, 0, 0, 0, [], 0, [], 2 ^ 20, none, none, false, [], 0, none, none, none⟩

/-- PARTITION (R437): colour, cluster mask, badger mask, channel mask, ASID range with its first in [11:0] and its last in [27:16], HBM
quota in bytes. What the colour had before beside these stays, a pre-emption that is asked for among it. -/
def execPartition (fn : Nat) (s : State) : Host.Outcome State Fault Refusal :=
  s.command fn 0x07 fun c s =>
    let colour := c.op 1
    let lo := c.op 5 % 2 ^ 12
    let hi := c.op 5 / 2 ^ 16 % 2 ^ 12
    let chans : BitVec 32 := BitVec.ofNat 32 (c.op 4)
    let others := s.card.partitions.filter fun p => p.colour != colour
    let old := s.card.partition colour
    if fn ≠ 0 then s.notPermitted
    else if 16 ≤ colour ∨ 2 ^ 32 ≤ c.op 2 ∨ 2 ^ 32 ≤ c.op 3 ∨ 2 ^ 32 ≤ c.op 4 ∨ lo = 0 ∨ hi < lo ∨ 2 ^ 28 ≤ c.op 5 ∨ c.op 5 / 2 ^ 12 % 2 ^ 4 ≠ 0 then
      s.malformed
    else if s.card.launches.any (fun l => l.colour == colour) ||
        others.any (fun p => p.channels &&& chans != 0#32 || (decide (lo ≤ p.asidLast) && decide (p.asidFirst ≤ hi))) then s.refused
    else
      let choice := Config.choice s.draws
      match if (old.map Partition.logs).getD 0 = 0 then s.card.giveLogs colour choice else some ((old.map Partition.logs).getD 0, s.card) with
      | none => s.exhausted
      | some (logs, k) =>
        let p : Partition := { old.getD (Partition.fresh colour) with
          clusters := BitVec.ofNat 32 (c.op 2), badgers := BitVec.ofNat 32 (c.op 3), channels := chans
          asidFirst := lo, asidLast := hi, quota := c.op 6, logs := logs }
        (({ s with card := { k with partitions := others ++ [p] } } : State).assignAsids old p choice).done 0

end Sys2Proof.Machine
end

