-- ==== Sys2Proof/Machine/Records.lean ====
section
/-! DEFINITION. Launch records (R15-R18, R392-R400), their check and submission (R398, R402, R412), completion records (R415-R417),
cancellation. -/

namespace Sys2Proof.Machine

/-! ### Fields of a record -/

/-- A level entry (R394). -/
structure Level where
  domain : Nat
  sheaf : Bool
  scope : Nat
  group : Nat
  count : Nat
deriving DecidableEq, Repr

def levelOf (w : Nat) : Level := ⟨w % 2 ^ 3, w.testBit 3, w / 2 ^ 4 % 2 ^ 2, w / 2 ^ 8 % 2 ^ 8, w / 2 ^ 16 % 2 ^ 17⟩

/-- The control word's fields (R393). -/
def Launch.signal (l : Launch) : Nat := l.ctl 16 12
def Launch.topo (l : Launch) : Nat := l.ctl 8 2
def Launch.nlev (l : Launch) : Nat := l.ctl 5 3 + 1
def Launch.coresident (l : Launch) : Bool := l.ctl 4 1 == 1
def Launch.prio (l : Launch) : Nat := l.ctl 0 4

/-- Placement patience and badger mask (R392). -/
def Launch.pat (l : Launch) : Nat := l.word 21 % 2 ^ 32
def Launch.badgerMask (l : Launch) : BitVec 32 := BitVec.ofNat 32 (l.word 21 / 2 ^ 32)

/-- The resource word's fields (R396). -/
def Launch.res (l : Launch) (lo n : Nat) : Nat := l.word 22 / 2 ^ lo % 2 ^ n

/-- The declared limits (R90). -/
def Launch.limits (l : Launch) : Limits := ⟨l.res 0 6, l.res 6 4, l.res 10 3, l.res 28 4, l.res 13 9⟩

/-- The declared levels, outermost first. -/
def Launch.levels (l : Launch) : List Level := (List.range l.nlev).map fun i => levelOf (l.word (8 + i))

/-- The number of the sheaf level. -/
def Launch.sheafLevel (l : Launch) : Nat := (l.levels.findIdx? Level.sheaf).getD 0

def product (l : List Nat) : Nat := l.foldl (· * ·) 1

/-- Strands in all, in a sheaf, and the number of sheaves (R15, R18). -/
def Launch.strandCount (l : Launch) : Nat := product (l.levels.map Level.count)
def Launch.perSheaf (l : Launch) : Nat := product ((l.levels.drop (l.sheafLevel + 1)).map Level.count)
def Launch.sheafCount (l : Launch) : Nat := product ((l.levels.take (l.sheafLevel + 1)).map Level.count)

/-- A pair launch (R412). -/
def Launch.isPair (l : Launch) : Bool := (l.levels.headD ⟨0, false, 0, 0, 0⟩).domain == 6

/-- The badger cores of the mask. -/
def Launch.badgerList (l : Launch) : List Nat := (List.range 32).filter fun b => l.badgerMask.getLsbD b

/-- Coordinates of an index in mixed radix, outermost first (R18). -/
def coordsOf : List Nat → Nat → List Nat
  | [], _ => []
  | _ :: cs, i => i / product cs :: coordsOf cs (i % product cs)

/-- The coordinates of a strand. -/
def Launch.coords (l : Launch) (index : Nat) : List Nat := coordsOf (l.levels.map Level.count) index

/-- A gradient queue entry (R397). -/
def Launch.queueWord (l : Launch) (q : Nat) : Nat := l.word (24 + q / 2) / 2 ^ (32 * (q % 2)) % 2 ^ 32

/-- The declared queues. -/
def Launch.queues (l : Launch) : List GradQueue :=
  (List.range 16).filterMap fun q =>
    let v := l.queueWord q
    if v.testBit 31 then
      let first := v / 2 ^ 15 % 2 ^ 5
      some ⟨l.id, q, v % 2 ^ 5, BitVec.ofNat 5 (v / 2 ^ 5), 4 * (v / 2 ^ 10 % 2 ^ 5 + 1), v / 2 ^ 25 % 2 ^ 6 + 1,
        (List.range (v / 2 ^ 20 % 2 ^ 5 + 1 - first)).map fun i => ⟨first + i, none, []⟩⟩
    else none

/-! ### The check (R398) -/

/-- Cores of a domain (R16). -/
def domainSize (d : Nat) : Nat := [1, 8, 32, 64, 128, 256, 512].getD d 0

/-- Address words of a record, with the alignments that R392 gives, and R23 for s.tvec. -/
def Launch.addressesOk (l : Launch) : Bool :=
  ([0, 1, 2, 4, 5, 6, 7, 23].all fun i => decide (l.word i < 2 ^ 52)) && l.word 2 % 64 == 0 && l.word 5 % 64 == 0 && l.word 6 % 2 ^ 20 == 0 &&
    l.word 7 % 2 ^ 18 == 0 && l.word 4 % 2 ^ 12 == 0

/-- The completion record's own address can be used. -/
def Launch.doneOk (l : Launch) : Bool := decide (l.word 2 < 2 ^ 52) && l.word 2 % 64 == 0

/-- Zero fields and reserved values of R393-R397. -/
def Launch.fieldsOk (l : Launch) : Bool :=
  l.ctl 53 11 == 0 && l.ctl 28 4 == 0 && l.ctl 14 2 == 0 && l.topo != 3 &&
    ((List.range 8).all fun i =>
      let w := l.word (8 + i)
      if i < l.nlev then w / 2 ^ 33 == 0 && w / 2 ^ 6 % 4 == 0 else w == 0) &&
    ((List.range 4).all fun i => l.word (16 + i) / 2 ^ 12 % 2 ^ 20 == 0) &&
    l.res 40 24 == 0 &&
    (List.range 16).all fun q =>
      let v := l.queueWord q
      if v.testBit 31 then
        decide (v / 2 ^ 5 % 2 ^ 5 ≤ 14) && decide (v / 2 ^ 15 % 2 ^ 5 ≤ v / 2 ^ 20 % 2 ^ 5) && l.badgerMask.getLsbD (v % 2 ^ 5)
      else v == 0

/-- Neighbouring levels, outer then inner. -/
def innerPairs (l : List Level) : List (Level × Level) := l.zip l.tail

/-- R15 and R16. -/
def Launch.levelsOk (l : Launch) : Bool :=
  let ls := l.levels
  let s := l.sheafLevel
  ((ls.getLast?).any fun v => v.domain == 0) && (ls.all fun v => v.domain != 7 && decide (1 ≤ v.count) && decide (v.count ≤ 65536)) &&
    ((innerPairs ls).all fun p => decide (p.2.domain ≤ p.1.domain)) && (ls.filter Level.sheaf).length == 1 &&
    decide ((ls.getD s ⟨0, false, 0, 0, 0⟩).domain ≤ 5) &&
    ((innerPairs (ls.drop (s - 1))).all fun p => decide (p.2.count * domainSize p.2.domain ≤ domainSize p.1.domain)) &&
    decide (l.strandCount ≤ 65536)

/-- The groups of the levels (R261). -/
def Launch.groupsOk (l : Launch) : Bool :=
  let gs := (l.levels.map Level.group).filter fun g => g != 0
  gs.Nodup && (gs.all fun g => decide (g ≤ 3) || (decide (32 ≤ g) && decide (g ≤ 63))) &&
    (l.levels.all fun v => v.domain != 6 || v.group == 0) && decide ((gs.filter fun g => decide (32 ≤ g)).length ≤ l.res 22 6)

/-- Fjoano's resources, and the floor that class 0 names (R398, R399). -/
def Launch.resourcesOk (l : Launch) : Bool :=
  let r := l.limits
  decide (1 ≤ r.tiles) && decide (r.tiles ≤ 32) && decide (r.acc ≤ 8) && decide (r.pins ≤ 4) && decide (r.copy ≤ 8) && decide (r.stash ≤ 256) &&
    decide (l.res 22 6 ≤ 32) &&
    (l.res 32 8 != 0 || (decide (r.acc ≤ 4) && decide (r.pins ≤ 2) && decide (r.stash ≤ 192) && decide (l.res 22 6 ≤ 16) && decide (r.copy ≤ 4) &&
      decide (l.perSheaf ≤ 64) && decide (l.queues.length ≤ 8)))

/-- R412: a pair launch is submitted on card 0, with one level-0 unit of two package units. -/
def Launch.pairOk (l : Launch) (zero : Bool) : Bool :=
  let v0 := l.levels.getD 0 ⟨0, false, 0, 0, 0⟩
  let v1 := l.levels.getD 1 ⟨0, false, 0, 0, 0⟩
  !l.isPair || (zero && v0.count == 1 && v1.domain == 5 && v1.count == 2)

/-- R398: at most 65536 strands, the badger strands among them. -/
def Launch.totalOk (l : Launch) : Bool :=
  decide (l.strandCount + (if l.isPair then 2 else 1) * l.badgerList.length ≤ 65536)

/-- R398: the ASID is assigned to the colour's partition. -/
def Card.asidOk (k : Card) (l : Launch) : Bool := l.asid != 0 && (k.asidOwner l.asid).any fun p => p.colour == l.colour

/-- The status at submission: none when the record enters its queue (R398, R399, R412). -/
def State.recordStatus (s : State) (fn : Nat) (l : Launch) : Option Nat :=
  if !(l.addressesOk && l.fieldsOk && l.levelsOk && l.groupsOk && l.resourcesOk && l.pairOk s.card.bridge.cardZero && l.totalOk &&
      s.card.asidOk l && ownColour fn l.colour) then some 2
  else if 1 < l.res 32 8 then some 4
  else if !l.isPair then none
  else match (s.card.partition l.colour).bind Partition.peerColour with
    | none => some 8
    | some c => if s.card.bridge.up && (s.peer.partition c).any (fun p => decide (p.asidFirst ≤ l.asid) && decide (l.asid ≤ p.asidLast)) then none
        else some 8

/-! ### Completion records -/

/-- The dispatcher that serves a partition (R404): the west die's unless all its clusters lie on the east die. -/
def Partition.die (p : Partition) : Nat := if p.clusters.toNat % 2 ^ 16 = 0 ∧ p.badgers.toNat % 2 ^ 16 = 0 then 1 else 0

def Card.clockOf (k : Card) (colour : Nat) : Nat := k.clocks.toList.getD (((k.partition colour).map Partition.die).getD 0) 0

/-- A token of a partition counts one up. -/
def State.signalToken (s : State) (colour token : Nat) : State :=
  if token = 0 then s else s.mapPartition colour fun p => p.setToken token (p.token token + 1#32)

/-- The words of a completion record (R415). -/
def Launch.completion (l : Launch) (status : Nat) : List Nat :=
  let sat16 (n : Nat) : Nat := min n 65535
  let ended := (l.strands.filter fun i => i.ran && i.ended).length
  let c := l.cause.getD (0, 0, 0)
  [status + l.id.toNat * 2 ^ 16 + ended * 2 ^ 32, l.first.getD 0, l.last,
    l.undelivered % 2 ^ 32 + sat16 l.discards * 2 ^ 32 + sat16 l.preempts * 2 ^ 48, c.2.1 % 2 ^ 10 + c.1 % 2 ^ 16 * 2 ^ 16, 0, 0, 0]

/-- The completion record is written at its home, word 0 last, and the signal token counts up (R416), under the launch's ASID and colour
(R466). -/
def State.writeCompletion (s : State) (l : Launch) (status : Nat) : State :=
  let ws := l.completion status
  let t := s.writeHomeBytes l.asid l.colour (l.word 2 + 8) (ws.tail.flatMap wordBytes)
  (t.writeHomeBytes l.asid l.colour (l.word 2) (wordBytes (ws.headD 0))).signalToken l.colour l.signal

/-- The host-held lines that the record's write meets. -/
def State.completionHeld (s : State) (l : Launch) : List Nat := s.heldLines l.asid l.colour (l.word 2) 64

/-! ### Submission -/

/-- A launch from a record, before it has an id. -/
def rawLaunch (record : List Word) : Launch :=
  ⟨0, record, .single, false, false, none, none, [], [], 0, none, 0, 0, 0, 0, none, false⟩

/-- The sheaves that a card places (R407, R408, R412): all of them, or in a pair launch those of one package unit, with its badger sheaf. -/
def Launch.withSheaves (l : Launch) (card : Nat) : Launch :=
  let n := l.sheafCount
  let per := l.perSheaf
  let mine := if l.isPair then (List.range (n / 2)).map fun i => card * (n / 2) + i else List.range n
  let badgers := l.badgerList
  let extra := if badgers.isEmpty then [] else [n + (if l.isPair then card else 0)]
  let off := if l.isPair then card * badgers.length else 0
  { l with
    sheaves := (mine.map fun i => ⟨i, false, 0, .waiting⟩) ++ extra.map fun i => ⟨i, true, 0, .waiting⟩
    strands := (mine.flatMap fun i => (List.range per).map fun j => ⟨i * per + j, i, none, false, 0, false, [], false, 0, [], []⟩) ++
      extra.flatMap fun i => (List.range badgers.length).map fun j => ⟨l.strandCount + off + j, i, none, false, 0, false, [], false, 0, [], []⟩ }

/-- The first id not in use from a place on (R402). -/
def freshId (used : BitVec 16 → Bool) (lo n : Nat) : Nat → Nat → BitVec 16
  | 0, i => BitVec.ofNat 16 (lo + i % n)
  | k + 1, i =>
    let id := BitVec.ofNat 16 (lo + i % n)
    if used id then freshId used lo n k (i + 1) else id

/-- The launch id that the firmware assigns (R402): which one is its own choice (DESIGN CHOICE, log entry 16). -/
def State.newId (s : State) (pair : Bool) : BitVec 16 :=
  let used (id : BitVec 16) : Bool := s.card.launches.any (fun l => l.id == id) || s.peer.launches.any fun l => l.id == id
  if pair then freshId used 0x8000 0x8000 0x8000 (Config.choice s.draws) else freshId used 1 0x7FFF 0x7FFF (Config.choice s.draws)

/-- Card 1's record of a pair launch names its own partition's colour. -/
def Launch.forPeer (l : Launch) (colour : Nat) : Launch :=
  { l with record := l.record.set 20 ((l.record.getD 20 0#64 &&& ~~~(0x3C00#64)) ||| BitVec.ofNat 64 (colour * 2 ^ 10)) }

/-- A record enters its queue (R402), and for a pair launch card 1's too (R412). -/
def State.submit (s : State) (l : Launch) : BitVec 16 × State :=
  let id := s.newId l.isPair
  let l := { l with id := id, pair := if l.isPair then .asked else .single }
  let t : State := { s with card := { s.card with launches := s.card.launches ++ [l.withSheaves 0] } }
  (id, if !l.isPair then t
    else match (s.card.partition l.colour).bind Partition.peerColour with
      | some c => { t with peer := { t.peer with launches := t.peer.launches ++ [(l.forPeer c).withSheaves 1] } }
      | none => t)

/-- LAUNCH (R392, R398, R437): the record's address in the shared region. A refused record's completion record is written at once (R417),
with the dispatcher clock of its end, where its own address and its ASID can be used (log entry 37). -/
def execLaunch (fn : Nat) (s : State) : Host.Outcome State Fault Refusal :=
  s.command fn 0x01 fun c s =>
    let a := c.op 1
    if !shared a ∨ a % 256 ≠ 0 ∨ 2 ^ 52 ≤ a ∨ (s.homeOf 0 (commandColour fn) a).isNone = true then s.malformed
    else
      let l := rawLaunch ((chunks 8 (s.homeBytes 0 (commandColour fn) a 256)).map fun b => BitVec.ofNat 64 (ofBytes b))
      match s.recordStatus fn l with
      | none =>
        let r := s.submit l
        r.2.done r.1.toNat
      | some st =>
        let t := if s.card.asidOk l && ownColour fn l.colour && l.doneOk then s.writeCompletion { l with last := s.card.clockOf l.colour } st else s
        if st = 2 then t.malformed else t.refused

/-! ### Ends by the firmware -/

/-- The end of the strand in focus is known to the dispatcher (R320, R409), and its core is without it. -/
def State.reportEnd (s : State) : State :=
  let done (k : Collective) : Bool := sameStrand k.strand s.core.strand && !k.open_
  { s with
    core := { s.core with run := .idle }
    card := { s.card with
      ends := s.card.ends ++ [(s.core.launchOf, s.core.strandIndex)]
      colls := s.card.colls.filter fun k => !done k } }

/-- A strand is ended by the firmware (R422, R417): its retired stores perform, its dirty bytes are written back as every strand's end releases
them at SYSTEM scope (R288), and its posts go on. It takes no further instruction, and no signal finds it: the firmware knows of its end. -/
def State.stopStrand (s : State) : State :=
  let t := s.drainAll.releaseAt 3
  (t.core.posts.foldl State.sendPost { t with
    core := { t.core with waiting := none, waitFrom := none, fw := [], parked := .free, preempt := none, posts := [], early := [] } }).reportEnd

/-- Every strand of a launch on this card is ended: those placed on their cores, the others in the firmware's tables. -/
def State.cancelHere (s : State) (id : BitVec 16) : State :=
  let running := (s.core :: s.card.cores).filter fun c => c.run == .running && strandLaunch c.strand == id
  let t := running.foldl (fun s c => s.onCore c.num State.stopStrand) s
  let placed (i : StrandInfo) : Bool := running.any fun c => strandIndexOf c.strand == i.index
  { t with card := t.card.mapLaunch id fun l => { l with
      status := max l.status 7
      reservation := none
      sheaves := l.sheaves.map fun h => if h.phase = .running then h else { h with phase := .ended }
      strands := l.strands.map fun i =>
        if placed i then i
        else { i with ended := true, core := if l.sheaves.any fun h => h.index == i.sheaf && h.phase == .running then i.core else none } } }

/-- CANCEL (R417, R437). -/
def execCancel (fn : Nat) (s : State) : Host.Outcome State Fault Refusal :=
  s.command fn 0x02 fun c s =>
    match s.card.launches.find? fun l => l.id.toNat == c.op 1 with
    | none => s.malformed
    | some l =>
      if !ownColour fn l.colour then s.notPermitted
      else if l.pair ≠ .single ∧ s.card.bridge.up = true then ((s.cancelHere l.id).onPeer fun t => t.cancelHere l.id).done 0
      else (s.cancelHere l.id).done 0

end Sys2Proof.Machine
end

