-- ==== Sys2Proof/Machine/Placement.lean ====
section
/-! DEFINITION. Where sheaves go (R405-R407, R410, R411), the Owlwire segments that their placement binds (R261, R262, R469), reservations'
choice of positions (R413). -/

namespace Sys2Proof.Machine

/-! ### Positions -/

/-- The extent of a domain in rows and columns (R16). -/
def domainRows (d : Nat) : Nat := [1, 2, 4, 4, 8, 16].getD d 1
def domainCols (d : Nat) : Nat := [1, 4, 8, 16, 16, 16].getD d 1

/-- The allowed origins of a sheaf-level unit, by row, then column (R405). -/
def origins (d : Nat) : List Nat :=
  match d with
  | 0 => List.range 256
  | 1 => (List.range 8).flatMap fun r => [0, 4, 8, 12].map fun c => 32 * r + c
  | 2 => [0, 2, 4, 8, 10, 12].flatMap fun r => [0, 8].map fun c => 16 * r + c
  | 3 => [0, 64, 128, 192]
  | 4 => [0, 128]
  | _ => [0]

/-- The cores of a domain's rectangle. -/
def rectangle (o d : Nat) : List Nat := (List.range (domainRows d)).flatMap fun i => (List.range (domainCols d)).map fun j => o + 16 * i + j

/-- The offset of an inner unit within a parent of cp columns, level by level (R405). -/
def unitOffset (cp : Nat) : List Level → List Nat → Nat
  | v :: vs, c :: cs =>
    let per := max 1 (cp / domainCols v.domain)
    16 * (c / per * domainRows v.domain) + c % per * domainCols v.domain + unitOffset (domainCols v.domain) vs cs
  | _, _ => 0

def Launch.sheafDomain (l : Launch) : Nat := (l.levels.getD l.sheafLevel ⟨0, false, 0, 0, 0⟩).domain

/-- The offsets of a sheaf's strands from its origin, by their index within the sheaf. -/
def Launch.offsets (l : Launch) : List Nat :=
  let inner := l.levels.drop (l.sheafLevel + 1)
  (List.range l.perSheaf).map fun j => unitOffset (domainCols l.sheafDomain) inner (coordsOf (inner.map Level.count) j)

/-- Whether a core belongs to a partition. -/
def Partition.hasCore (p : Partition) (n : Nat) : Bool :=
  match clusterOf n with
  | some k => p.clusters.getLsbD k
  | none => p.badgers.getLsbD (n - 256)

/-- The legal positions of a compute sheaf: its origin, and the cores of its strands. -/
def Partition.positions (p : Partition) (l : Launch) : List (Nat × List Nat) :=
  ((origins l.sheafDomain).filter fun o => (rectangle o l.sheafDomain).all p.hasCore).map fun o => (o, l.offsets.map fun d => o + d)

/-- The position of a badger sheaf. -/
def Partition.badgerPosition (p : Partition) (l : Launch) : List (Nat × List Nat) :=
  let cs := l.badgerList.map fun b => 256 + b
  if cs.all p.hasCore then [(0, cs)] else []

/-- A core is free when no strand of a live launch stands there. -/
def Card.occupied (k : Card) (n : Nat) : Bool := k.launches.any fun l => l.strands.any fun i => i.core == some n

/-- A reservation of another launch keeps sheaves of its own or a lower priority away (R413). -/
def Card.reservedFor (k : Card) (l : Launch) (n : Nat) : Bool :=
  k.launches.any fun m => m.id != l.id && decide (l.prio ≤ m.prio) && m.reservation.any fun r => r.cores.contains n

def Card.canUse (k : Card) (l : Launch) (cs : List Nat) : Bool := cs.all fun n => !k.occupied n && !k.reservedFor l n

/-! ### Segments -/

/-- The height of the cut node of a set of cores (R262). -/
def cutHeight (cs : List Nat) : Nat := ((List.range 9).find? fun h => cs.all fun c => c / 2 ^ h == cs.headD 0 / 2 ^ h).getD 8

/-- The cut node of a set covers no core of another. -/
def cutMisses (a b : List Nat) : Bool := a.isEmpty || b.all fun c => c / 2 ^ cutHeight a != a.headD 0 / 2 ^ cutHeight a

/-- R262, in both directions. -/
def apart (a b : List Nat) : Bool := cutMisses a b && cutMisses b a

def Segment.cores (g : Segment) : List Nat := g.members.filterMap SyMember.core

/-- One segment under two names for its state. -/
def Segment.same (a b : Segment) : Bool := a.launch == b.launch && a.level == b.level && a.unit == b.unit && a.name == b.name

/-- Whether a segment may stand on its physical channel beside the others. -/
def segmentFits (segs : List Segment) (g : Segment) : Bool :=
  segs.all fun b => b.phys != g.phys || b.same g || apart g.cores b.cores

/-- The physical channels that a segment may take: its row, its column, or the free assignable channels of the partition, where a channel
that another launch or another group holds is not free (R406). -/
def physChoices (p : Partition) (segs : List Segment) (g : Segment) (row col : Nat) : List Nat :=
  if g.name < 16 then [row]
  else if g.name < 32 then [16 + col]
  else ((List.range 32).filter fun i => p.channels.getLsbD i && segs.all fun b => b.phys != 32 + i || (b.launch == g.launch && b.name == g.name)).map
    fun i => 32 + i

/-- A segment is bound, anew or with further cores, or cannot be. -/
def bindSegment (p : Partition) (segs : List Segment) (g : Segment) (row col : Nat) : Option (List Segment) :=
  match segs.find? fun b => b.same g with
  | some b =>
    let h := { g with phys := b.phys }
    if (g.name < 16 ∧ b.phys ≠ row) ∨ (16 ≤ g.name ∧ g.name < 32 ∧ b.phys ≠ 16 + col) then none
    else if segmentFits segs h then some (segs.map fun c => if c.same g then h else c) else none
  | none => ((physChoices p segs g row col).map fun ph => { g with phys := ph }).find? (segmentFits segs) |>.map fun h => segs ++ [h]

/-- The members of a unit, all its strands. -/
def Launch.unitStrands (l : Launch) (level unit : Nat) : List Nat :=
  let n := product ((l.levels.drop (level + 1)).map Level.count)
  (List.range n).map fun i => unit * n + i

def Launch.unitOf (l : Launch) (level index : Nat) : Nat := index / product ((l.levels.drop (level + 1)).map Level.count)

/-- The channel numbers that a group gives a core (R261). -/
def groupChannels (group core : Nat) : List Nat :=
  match group with
  | 0 => []
  | 1 => [core / 16]
  | 2 => [16 + core % 16]
  | 3 => [core / 16, 16 + core % 16]
  | g => [g]

/-- A segment with the placed strands of a sheaf as members: those on its channel. Outside the sheaf level, strands of the unit that are
not placed yet are members too (R469), and those placed off the channel are not. -/
def Launch.newSegment (l : Launch) (old : Option Segment) (level unit name : Nat) (placed : List (Nat × Nat)) : Segment :=
  let v := l.levels.getD level ⟨0, false, 0, 0, 0⟩
  let on (q : Nat × Nat) : Bool := (groupChannels v.group q.2).contains name
  let known (i : Nat) : Option SyMember := old.bind fun g => g.members.find? fun m => m.index == i
  let waits (i : Nat) : Bool := l.strands.any fun s => s.index == i && s.core.isNone && !s.ended
  let mem (i : Nat) : Option SyMember :=
    match placed.find? fun q => q.1 == i with
    | some q => if on q then some { (known i).getD ⟨i, none, 0, 0, []⟩ with core := some q.2 } else none
    | none => match known i with
      | some m => some m
      | none => if old.isNone && waits i then some ⟨i, none, 0, 0, []⟩ else none
  let all := if level < l.sheafLevel then l.unitStrands level unit else (placed.map Prod.fst).filter fun i => l.unitOf level i == unit
  ⟨name, name, l.id, level, unit, v.scope, (old.map Segment.gen).getD 0, all.filterMap mem, (old.map Segment.results).getD []⟩

/-- The segments that a first placement of strands asks for: level, unit, channel number, a core on the channel. -/
def Launch.requests (l : Launch) (placed : List (Nat × Nat)) : List (Nat × Nat × Nat × Nat) :=
  ((List.range l.nlev).flatMap fun v => placed.flatMap fun q =>
    (groupChannels (l.levels.getD v ⟨0, false, 0, 0, 0⟩).group q.2).map fun n => (v, l.unitOf v q.1, n, q.2)).foldl
      (fun acc r => if acc.any fun a => a.1 == r.1 && a.2.1 == r.2.1 && a.2.2.1 == r.2.2.1 then acc else acc ++ [r]) []

/-- Binding for a first placement. -/
def Launch.bindFresh (l : Launch) (p : Partition) (segs : List Segment) (placed : List (Nat × Nat)) : Option (List Segment) :=
  let segs := segs.map fun g =>
    if g.launch = l.id ∧ g.level < l.sheafLevel then
      { g with members := g.members.filter fun m => m.core.isSome || !placed.any (fun q => q.1 == m.index &&
          !(groupChannels (l.levels.getD g.level ⟨0, false, 0, 0, 0⟩).group q.2).contains g.name) }
    else g
  (l.requests placed).foldlM (fun segs r =>
    let old := segs.find? fun g => g.launch == l.id && g.level == r.1 && g.unit == r.2.1 && g.name == r.2.2.1
    bindSegment p segs (l.newSegment old r.1 r.2.1 r.2.2.1 placed) (r.2.2.2 / 16) (r.2.2.2 % 16)) segs

/-- The number by which a core names a channel of a kind: its row, its column, or a launch-relative number, which stays (R260). -/
def channelFor (name core : Nat) : Nat := if name < 16 then core / 16 else if name < 32 then 16 + core % 16 else name

/-- Two states of one segment of a launch: of one unit, with a member in common, both of rows, both of columns, or both of one number. -/
def Segment.sharesWith (a b : Segment) : Bool :=
  a.launch == b.launch && a.level == b.level && a.unit == b.unit && channelFor a.name 0 == channelFor b.name 0 &&
    a.members.any fun m => b.members.any fun n => n.index == m.index

/-- Binding on resumption: the saved segments with members among the strands take their new cores. Generations, counts and arrivals stay
(R275, R425); the number of a row or column channel is that of the new row or column (R260), which every member must share. -/
def Launch.bindSaved (l : Launch) (p : Partition) (segs : List Segment) (placed : List (Nat × Nat)) : Option (List Segment) :=
  let touched := p.saved.filter fun g => g.launch == l.id && g.members.any fun m => placed.any fun q => q.1 == m.index
  touched.foldlM (fun segs g =>
    let now := segs.find? fun b => b.sharesWith g
    let cur := now.getD g
    let move (m : SyMember) : SyMember := match placed.find? fun q => q.1 == m.index with
      | some q => { m with core := some q.2 }
      | none => m
    let cores := (cur.members.filter fun m => placed.any fun q => q.1 == m.index).filterMap fun m => (move m).core
    let c := cores.headD 0
    let h := { cur with name := channelFor cur.name c, members := cur.members.map move }
    if (cores.any fun d => channelFor cur.name d != h.name) || now.any (fun b => b.name != h.name) ||
        segs.any (fun b => b.same h && !b.sharesWith h) then none
    else bindSegment p segs h (c / 16) (c % 16)) segs

/-! ### Placing a sheaf -/

/-- The strands of a sheaf. -/
def Launch.strandsOf (l : Launch) (sheaf : Nat) : List StrandInfo := l.strands.filter fun i => i.sheaf == sheaf

/-- A sheaf of a launch stands at cores from now on (R406): its strands in the order of their index, and its start is decided. -/
def Launch.stand (l : Launch) (now sheaf origin : Nat) (cs : List Nat) : Launch :=
  let placed := ((l.strandsOf sheaf).map StrandInfo.index).zip cs
  { l with
    first := some (l.first.getD now)
    sheaves := l.sheaves.map fun h =>
      if h.index = sheaf then { h with origin := origin, phase := .decided (now + if l.topo = 1 ∨ l.topo = 2 then 2048 else 64) } else h
    strands := l.strands.map fun i => match placed.find? fun q => q.1 == i.index with
      | some q => { i with core := some q.2 }
      | none => i }

/-- The current entry of a launch. -/
def Card.launchAt (k : Card) (id : BitVec 16) : Option Launch := k.launches.find? fun l => l.id == id

/-- A sheaf is placed at a position, if its cores are free and its channels can be bound (R406). -/
def Card.placeAt (k : Card) (p : Partition) (id : BitVec 16) (h : Sheaf) (pos : Nat × List Nat) : Option Card :=
  match k.launchAt id with
  | none => none
  | some l =>
    if !k.canUse l pos.2 then none
    else
      let placed := ((l.strandsOf h.index).map StrandInfo.index).zip pos.2
      let segs := if h.badger then some k.segments
        else if h.phase = .preempted then l.bindSaved p k.segments placed else l.bindFresh p k.segments placed
      segs.map fun segs =>
        let region := if (l.topo = 1 ∨ l.topo = 2) ∧ !h.badger then
            [(⟨p.colour, pos.1 / 16, pos.1 % 16, domainRows l.sheafDomain, domainCols l.sheafDomain, l.topo, false, none, some (id, h.index)⟩ : Region)] else []
        { k with
          segments := segs
          regions := k.regions ++ region
          queues := if h.badger ∧ h.phase = .waiting then k.queues ++ l.queues else k.queues
          launches := k.launches.map fun m => if m.id = id then m.stand (k.clockOf p.colour) h.index pos.1 pos.2 else m }

/-- The badger sheaf stands with the first compute sheaf (R407). -/
def Card.withBadgers (k : Card) (p : Partition) (id : BitVec 16) : Option Card :=
  match k.launchAt id with
  | none => none
  | some l => match l.sheaves.find? fun h => h.badger && (h.phase == .waiting || h.phase == .preempted) with
    | none => some k
    | some h => (p.badgerPosition l).findSome? fun pos => k.placeAt p id h pos

/-- The dispatcher's own choice among the legal positions: where its search begins (DESIGN CHOICE, log entry 15). -/
def rotate {α : Type} (n : Nat) (l : List α) : List α := if l.isEmpty then l else l.drop (n % l.length) ++ l.take (n % l.length)

/-- The cards after placing a compute sheaf with what must stand with it, for every legal position. -/
def Card.placements (k : Card) (p : Partition) (id : BitVec 16) (choice : Nat) (h : Sheaf) : List Card :=
  match k.launchAt id with
  | none => []
  | some l => (rotate choice (p.positions l)).filterMap fun pos => (k.placeAt p id h pos).bind fun k => k.withBadgers p id

/-- All sheaves of a list are placed, or none (R410). -/
def Card.placeAll (p : Partition) (id : BitVec 16) (choice : Nat) : List Sheaf → Card → Option Card
  | [], k => some k
  | h :: hs, k => (k.placements p id choice h).findSome? fun k => Card.placeAll p id choice hs k

/-- Sheaves are placed one after another while they can be (R411). -/
def Card.placeSome (p : Partition) (id : BitVec 16) (choice : Nat) : List Sheaf → Card → Card
  | [], k => k
  | h :: hs, k => match k.placements p id choice h with
    | k' :: _ => Card.placeSome p id choice hs k'
    | [] => k

/-- The compute sheaves that wait for a place, in ascending order. -/
def Launch.pendingSheaves (l : Launch) : List Sheaf := l.sheaves.filter fun h => !h.badger && (h.phase == .waiting || h.phase == .preempted)

/-- The partition could hold the launch, or its next sheaf, when empty (R410, R411). -/
def Card.couldHold (k : Card) (p : Partition) (l : Launch) : Bool :=
  let e : Card := { k with launches := [l], segments := [] }
  if l.coresident then (Card.placeAll p l.id 0 l.pendingSheaves e).isSome
  else match l.pendingSheaves with
    | [] => true
    | h :: _ => !(e.placements p l.id 0 h).isEmpty

/-! ### Reservations (R413) -/

/-- The priority of the launch on a core. -/
def Card.occupantPrio (k : Card) (n : Nat) : Option Nat :=
  (k.launches.find? fun l => l.strands.any fun i => i.core == some n).map Launch.prio

/-- Sets of n disjoint positions, in ascending order. -/
def selections : List (Nat × List Nat) → Nat → List (List (Nat × List Nat))
  | _, 0 => [[]]
  | [], _ + 1 => []
  | p :: ps, n + 1 =>
    ((selections ps n).filter fun qs => qs.all fun q => q.2.all fun c => !p.2.contains c).map (fun qs => p :: qs) ++ selections ps (n + 1)

/-- What a choice of positions is measured by: occupied cores, then the highest priority of an occupant (0 for none, else one more), then
the place of its first position. -/
def Card.selectionKey (k : Card) (qs : List (Nat × List Nat)) : Nat × Nat × Nat :=
  let cs := (qs.flatMap Prod.snd).filter k.occupied
  (cs.length, (cs.filterMap k.occupantPrio).foldl (fun m x => max m (x + 1)) 0, (qs.headD (0, [])).1)

def keyLess (a b : Nat × Nat × Nat) : Bool :=
  decide (a.1 < b.1) || (a.1 == b.1 && (decide (a.2.1 < b.2.1) || (a.2.1 == b.2.1 && decide (a.2.2 < b.2.2))))

/-- The cores that a launch reserves. -/
def Card.chooseReserved (k : Card) (p : Partition) (l : Launch) : List Nat :=
  let n := if l.coresident then l.pendingSheaves.length else 1
  match selections (p.positions l) n with
  | [] => []
  | q :: qs => (qs.foldl (fun b c => if keyLess (k.selectionKey c) (k.selectionKey b) then c else b) q).flatMap Prod.snd

end Sys2Proof.Machine
end

