-- ==== Sys2Proof/Machine/Dispatcher.lean ====
section
/-! DEFINITION. The dispatchers' events: rounds (R404, R410-R412), starts (R28, R406), resumption (R328, R425), patience and reservations
(R413, R414), the ends of strands and launches (R409, R415, R416). -/

namespace Sys2Proof.Machine

/-! ### Ends -/

/-- R469: a segment is unbound when every strand of its unit has ended. -/
def Launch.unitEnded (l : Launch) (level unit : Nat) : Bool :=
  l.strands.all fun i => i.ended || decide (l.strandCount ≤ i.index) || l.unitOf level i.index != unit

/-- Strands of a launch have ended. A sheaf all of whose strands have ended leaves its cores (R12); badger cores stay with their launch
(R407). -/
def Launch.endStrands (l : Launch) (idx : List Nat) : Launch :=
  let strands := l.strands.map fun i => if idx.contains i.index then { i with ended := true } else i
  let isOver (h : Sheaf) : Bool := h.phase == .running && strands.all fun i => i.ended || i.sheaf != h.index
  let gone := (l.sheaves.filter fun h => isOver h && !h.badger).map Sheaf.index
  { l with
    strands := strands.map fun i => if gone.contains i.sheaf then { i with core := none } else i
    sheaves := l.sheaves.map fun h => if isOver h then { h with phase := .ended } else h }

/-- The restitched rectangles of sheaves that are placed no longer are undone (R430). -/
def Card.undoRegions (k : Card) : Card :=
  let placed (h : Sheaf) : Bool := match h.phase with
    | .decided _ => true
    | .running => true
    | _ => false
  { k with regions := k.regions.filter fun r => r.owner.all fun o =>
      (k.launchAt o.1).any fun l => l.sheaves.any fun h => h.index == o.2 && placed h }

/-- The ends that were reported are applied to the launches of a colour (R404, step 1). -/
def Card.applyEnds (k : Card) (colour : Nat) : Card :=
  let of_ (l : Launch) : List Nat := (k.ends.filter fun e => e.1 == l.id).map Prod.snd
  let ids := (k.launches.filter fun l => l.colour == colour).map Launch.id
  let launches := k.launches.map fun l => if ids.contains l.id then l.endStrands (of_ l) else l
  let k := { k with launches := launches, ends := k.ends.filter fun e => !ids.contains e.1 }
  let stays (g : Segment) : Bool := !(ids.contains g.launch && (k.launchAt g.launch).any fun (l : Launch) => l.unitEnded g.level g.unit)
  { k with segments := k.segments.filter stays }.undoRegions

/-- STRAND_END_REPORT (R320, R409): the core in focus reports the end of its strand and is without one. -/
def execStrandEndReport (s : State) : Host.Outcome State Fault Refusal :=
  if s.core.run ≠ .ended then .next s else .next s.reportEnd

/-! ### Rounds -/

/-- The waits of a record (R395). -/
def Launch.waits (l : Launch) : List (Nat × Nat) :=
  ((List.range 4).map fun i => (l.word (16 + i) % 2 ^ 12, l.word (16 + i) / 2 ^ 32)).filter fun w => w.1 != 0

/-- A launch whose waits are met stays eligible (R403); tokens of a pair launch are those of card 0's partition (R412). -/
def Launch.refresh (l : Launch) (p : Partition) (peer : Card) : Launch :=
  let met :=
    if l.pair ≠ .single ∧ peer.bridge.cardZero = true then (peer.launchAt l.id).any Launch.eligible
    else l.waits.all fun w => tokenMet (p.token w.1) (BitVec.ofNat 32 w.2)
  { l with eligible := l.eligible || met }

/-- Sheaves of the launch wait for a place. -/
def Launch.waiting (l : Launch) : Bool := l.sheaves.any fun h => h.phase == .waiting || h.phase == .preempted

/-- The head of a priority (R403): the launches that a pre-emption put in front, then the oldest. -/
def Card.head (k : Card) (colour prio : Nat) : Option Launch :=
  let ls := k.launches.filter fun l => l.colour == colour && l.prio == prio && l.eligible && l.waiting
  match ls.find? Launch.front with
  | some l => some l
  | none => ls.head?

/-- Sheaves of a launch that have not been placed never start; those that run or have run go on (R410, R414). -/
def Launch.giveUp (l : Launch) (status : Nat) : Launch :=
  let out (n : Nat) : Bool := l.sheaves.any fun h => h.index == n && h.phase == .waiting
  { l with
    status := max l.status status
    reservation := none
    headSince := none
    sheaves := l.sheaves.map fun h => if out h.index then { h with phase := .ended } else h
    strands := l.strands.map fun i => if out i.sheaf then { i with ended := true, core := none } else i }

/-- Cores that a launch holds. -/
def Launch.cores (l : Launch) : List Nat := l.strands.filterMap StrandInfo.core

/-- A launch of higher priority placed on reserved cores restarts their reserver's second count (R413). -/
def Card.restartCounts (k : Card) (l : Launch) (cores : List Nat) (now : Nat) : Card :=
  { k with launches := k.launches.map fun m => match m.reservation with
      | some r => if m.id ≠ l.id ∧ m.prio < l.prio ∧ (r.cores.any fun c => cores.contains c) = true then
          { m with reservation := some { r with since := now } } else m
      | none => m }

/-- Those of a launch's sheaves in a list that can be placed now are placed: all of a co-resident launch or none (R410), else one after another
(R411); with every compute sheaf placed, a pre-empted badger sheaf still is. -/
def Card.tryPlaceOf (k : Card) (p : Partition) (l : Launch) (choice : Nat) (hs : List Sheaf) : Option Card :=
  let placed :=
    match hs with
    | [] => if l.pendingSheaves.isEmpty then k.withBadgers p l.id else none
    | hs => if l.coresident then Card.placeAll p l.id choice hs k else some (Card.placeSome p l.id choice hs k)
  placed.bind fun t =>
    let old := l.cores
    let new := (((t.launchAt l.id).map Launch.cores).getD []).filter fun c => !old.contains c
    if new.isEmpty then none
    else some ((t.mapLaunch l.id fun m => { m with
        reservation := none
        headSince := if m.waiting then m.headSince else none
        front := m.front && m.sheaves.any fun h => h.phase == .preempted }).restartCounts l new (k.clockOf l.colour))

/-- The sheaves of a launch that wait for a place. -/
def Card.tryPlace (k : Card) (p : Partition) (l : Launch) (choice : Nat) : Option Card := k.tryPlaceOf p l choice l.pendingSheaves

/-- Card 1 places no sheaf of a pair launch without co-residency before card 0 has placed all of its own (R411). -/
def Launch.peerFirst (l : Launch) (peer : Card) : Bool :=
  l.coresident || !peer.bridge.cardZero || (peer.launchAt l.id).all fun m => m.pendingSheaves.isEmpty

/-- A head whose patience has passed and that still waits reserves in the round itself, one with pat 0 in its first (R413). The patience of
a pair launch is counted on card 0 (R412); card 1 follows. -/
def Card.reserveInRound (k : Card) (p : Partition) (peer : Card) (id : BitVec 16) : Card :=
  match k.launchAt id with
  | none => k
  | some l =>
    let now := k.clockOf l.colour
    let own : Bool := l.pat != 2 ^ 32 - 1 && l.headSince.any fun t => decide (t + l.pat ≤ now)
    let past : Bool := if l.pair = .single ∨ k.bridge.cardZero = true then own else (peer.launchAt id).any fun m => m.reservation.isSome
    if l.waiting && l.reservation.isNone && past then
      k.mapLaunch id fun m => { m with reservation := some ⟨k.chooseReserved p l, now⟩ }
    else k

/-- The dispatcher tries one head. A pair launch reserves the cores it can have, and is placed after the commit (R412). -/
def Card.tryHead (k : Card) (p : Partition) (peer : Card) (l : Launch) (choice : Nat) : Card :=
  let now := k.clockOf l.colour
  let k := k.mapLaunch l.id fun m => { m with headSince := some (m.headSince.getD now) }
  if l.first.isNone && !k.couldHold p l then k.mapLaunch l.id fun m => m.giveUp 3
  else match l.pair with
    | .single => ((k.tryPlace p l choice).getD k).reserveInRound p peer l.id
    | .asked =>
      match k.tryPlace p l choice with
      | none => k.reserveInRound p peer l.id
      | some t =>
        let cs := ((t.launchAt l.id).map Launch.cores).getD []
        k.mapLaunch l.id fun m => { m with pair := .reserved, reservation := some ⟨cs, now⟩ }
    | .reserved => k
    | .committed => (if l.peerFirst peer then (k.tryPlace p l choice).getD k else k).reserveInRound p peer l.id

/-- The pre-empted sheaves of the launches of a priority are resumed where their cores are free, whether or not their launch is the head (R414,
R425). -/
def Card.resumeRest (k : Card) (p : Partition) (choice prio : Nat) : Card :=
  let stopped (l : Launch) : List Sheaf := l.pendingSheaves.filter fun h => h.phase == .preempted
  (k.launches.filter fun l => l.colour == p.colour && l.prio == prio && l.sheaves.any fun h => h.phase == .preempted).foldl
    (fun k l => ((k.launchAt l.id).bind fun l => k.tryPlaceOf p l choice (stopped l)).getD k) k

/-- The heads of the priorities from a bound down to 0 are tried, and with them the sheaves that are to be resumed. -/
def Card.tryHeads (p : Partition) (peer : Card) (choice : Nat) : Nat → Card → Card
  | 0, k => k
  | n + 1, k =>
    let k := match k.head p.colour n with
      | some l => k.tryHead p peer l choice
      | none => k
    Card.tryHeads p peer choice n (k.resumeRest p choice n)

/-- A launch that is no head has no patience running and no reservation (R413), one that waits for its commit apart. -/
def Card.dropHeads (k : Card) (colour : Nat) : Card :=
  { k with launches := k.launches.map fun l =>
      if l.colour ≠ colour ∨ ((k.head colour l.prio).any fun m => m.id == l.id) = true ∨ l.pair = .reserved ∨ l.pair = .committed then l
      else { l with headSince := none, reservation := none } }

/-- After a pre-emption for a reserver, the reserver is placed before anything else (R414). -/
def Card.placeFirst (k : Card) (p : Partition) (peer : Card) (choice : Nat) : Card × Bool :=
  match p.firstUp.bind k.launchAt with
  | none => (k, true)
  | some l =>
    if !l.waiting then (k, true)
    else
      let t := k.tryHead p peer l choice
      let placed := (t.launchAt l.id).all fun m => m.cores != l.cores || !m.waiting
      (t, placed || decide (l.pair ≠ .single))

/-- The clock steps at a round that places or ends a launch (R448): down above the limit, up after 16 samples more than 5 percent below. -/
def Card.clockStep (k : Card) : Card :=
  let w := k.power
  if w.above ∧ 1200 < w.mhz then
    { k with power := { w with mhz := w.mhz - 25 }, service := { k.service with clockSteps := k.service.clockSteps + 1 } }
  else if 16 ≤ w.below ∧ w.mhz < 1700 then
    { k with power := { w with mhz := w.mhz + 25, below := 0 }, service := { k.service with clockSteps := k.service.clockSteps + 1 } }
  else k

/-- What a round can change of a launch's standing: which cores it holds. -/
def Card.standing (k : Card) (colour : Nat) : List (BitVec 16 × List Nat) :=
  (k.launches.filter fun l => l.colour == colour).map fun l => (l.id, l.cores)

/-- Which launches have been placed, their first sheaf with them, and which have ended. -/
def Card.placedOrEnded (k : Card) (colour : Nat) : List (BitVec 16 × Bool × Bool) :=
  (k.launches.filter fun l => l.colour == colour).map fun l => (l.id, l.first.isSome, l.strands.all StrandInfo.ended)

/-- A round for one partition (R404). -/
def Card.round (k : Card) (p : Partition) (peer : Card) (choice : Nat) : Card :=
  let t := k.applyEnds p.colour
  let t := { t with launches := t.launches.map fun l => if l.colour = p.colour then l.refresh p peer else l }
  let t :=
    if p.preempting.isSome || p.preempted then t
    else
      let (t, free) := t.placeFirst p peer choice
      let t := if free then t.mapPartition p.colour fun q => { q with firstUp := none } else t
      if free then (Card.tryHeads p peer choice 16 t).dropHeads p.colour else t
  let t := if t.standing p.colour == k.standing p.colour then t else { t with power := { t.power with state := .active, lastUse := t.clocks[0] } }
  if t.placedOrEnded p.colour == k.placedOrEnded p.colour then t else t.clockStep

/-- An event for every reservation that the card has made since (R438). -/
def State.reportReservations (s : State) (before : Card) : State :=
  let made (l : Launch) : Bool := l.reservation.isSome && (before.launchAt l.id).all fun m => m.reservation.isNone
  (s.card.launches.filter made).foldl (fun s l => s.pushEvent (l.colour + 1) 3 l.colour l.id.toNat ⟨0, 0, 0#64, 0#64⟩) s

/-- A pair launch that one card gives up ends on both (R410-R412). -/
def State.giveUpPairs (s : State) (before : Card) : State :=
  let gone (l : Launch) : Bool := l.pair != .single && l.status == 3 && (before.launchAt l.id).any fun m => decide (m.status < 3)
  let ids := (s.card.launches.filter gone).map Launch.id
  { s with peer := ids.foldl (fun k id => k.mapLaunch id fun l => l.giveUp 3) s.peer }

/-- DISPATCHER_ROUND (R404). -/
def execDispatcherRound (colour : Nat) (s : State) : Host.Outcome State Fault Refusal :=
  match s.card.partition colour with
  | none => .next s
  | some p =>
    let t : State := { s with card := s.card.round p s.peer (Config.choice s.draws) }
    .next ((t.giveUpPairs s.card).reportReservations s.card)

/-! ### Starts -/

/-- s.ps of a new strand: the record's initial bits, user mode (R24, R393). Its rnd is the record's, though the reset column of R24 says 0b00
for a launch (DEDUCED, log entry 73). -/
def Launch.startPs (l : Launch) : Word :=
  BitVec.ofNat 64 (l.ctl 32 5 * 2 ^ 10 + l.ctl 37 2 * 2 ^ 8 + l.ctl 39 1 * 2 ^ 2 + l.ctl 40 1 * 2)

/-- s.strand (R25). -/
def strandWord (launch incarnation : BitVec 16) (index : Nat) : Word :=
  BitVec.ofNat 64 (launch.toNat * 2 ^ 32 + incarnation.toNat * 2 ^ 16 + index % 2 ^ 16)

/-- The start state of a strand on a core (R28, R406, R407): `j` is its index within its sheaf. The core's count of clocks, its permission
TLB, its instruction cache and its line buffer go on (R340); stash bytes stand as they are. The stores of the core's last strand are not the
strand's own (R298): the bytes beneath them are kept no longer. -/
def Core.start (c : Core) (l : Launch) (h : Sheaf) (i : StrandInfo) (j : Nat) (inc : BitVec 16) (members : List Nat) : Core :=
  let x := (((Vector.replicate 64 (0 : Word)).set 1 (BitVec.ofNat 64 (l.word 1))).set 2 (BitVec.ofNat 64 j)).set 3 (BitVec.ofNat 64 h.index)
  let coords := if h.badger then [] else l.coords i.index
  { Core.reset c.num c.kind with
    run := .running
    limits := l.limits
    pc := BitVec.ofNat 64 (if h.badger then l.word 23 else l.word 0)
    x := x
    cycle := c.cycle
    strand := strandWord l.id inc i.index
    lvl := Vector.ofFn fun n => BitVec.ofNat 64 (coords.getD n.val 0)
    ps := l.startPs
    seed := BitVec.ofNat 64 (l.word 3)
    tvec := if l.word 4 = 0 then Config.defaultTable else BitVec.ofNat 64 (l.word 4)
    asid := BitVec.ofNat 12 l.asid
    colour := BitVec.ofNat 4 l.colour
    stash := { Stash.reset with
      bytes := c.stash.bytes
      ver := c.stash.ver
      aperture := if l.word 7 = 0 then none else some ⟨l.word 7, members⟩ }
    tlb := c.tlb
    icache := c.icache
    lineBuffer := c.lineBuffer
    dfltTable := l.word 4 == 0 }

/-- A core is without a strand and without work of an earlier one (R28). -/
def Core.quiet (c : Core) : Bool :=
  c.run == .idle && c.posts.isEmpty && c.drain.isEmpty && (c.copies.toList.all fun k => k.queue.isEmpty)

/-- The incarnations that a strand has had. -/
def StrandInfo.incarnations (i : StrandInfo) : List (BitVec 16) := if i.ran then i.inc :: i.past else i.past

/-- The incarnation of the next strand on a core (R25): another one than that of the core's last strand, and than any that the strand has had
(R425) while there is one; which one is the dispatcher's choice (log entry 16). -/
def Card.nextIncarnation (k : Card) (core choice : Nat) (i : StrandInfo) : BitVec 16 :=
  let v := BitVec.ofNat 16 (choice / 2 ^ (16 * core))
  let last := (k.incarnations.find? fun p => p.1 == core).map Prod.snd
  let used := last.toList ++ i.incarnations
  (((List.range (used.length + 1)).map fun n => v + BitVec.ofNat 16 n).find? fun u => !used.contains u).getD
    (if last = some v then v + 1#16 else v)

def Card.setIncarnation (k : Card) (core : Nat) (v : BitVec 16) : Card :=
  { k with incarnations := (core, v) :: k.incarnations.filter fun p => p.1 != core }

/-- A cluster with a strand is not gated (R448). -/
def Card.wakeCluster (k : Card) (core : Nat) : Card :=
  match clusterOf core with
  | some c => { k with power := { k.power with state := .active, gated := k.power.gated &&& ~~~(1#32 <<< c), lastUse := k.clocks[0] } }
  | none => { k with power := { k.power with state := .active, lastUse := k.clocks[0] } }

/-- A rectangle that is being restitched keeps its cores idle (R430). -/
def Card.restitching (k : Card) (core : Nat) : Bool :=
  k.regions.any fun r => !r.complete && decide (core < 256) && decide (r.row ≤ core / 16) && decide (core / 16 < r.row + r.rows) &&
    decide (r.col ≤ core % 16) && decide (core % 16 < r.col + r.cols)

/-- A sheaf whose start is due, and whose cores are ready. -/
def State.sheafDue (s : State) (l : Launch) (h : Sheaf) : Bool :=
  (match h.phase with | .decided due => decide (due ≤ s.card.clockOf l.colour) | _ => false) &&
    (l.strandsOf h.index).all fun i => i.core.any fun n => (s.coreAt n).any Core.quiet && !s.card.restitching n

/-- One strand starts: with an acquire at SYSTEM scope (R288). -/
def State.startStrand (s : State) (l : Launch) (h : Sheaf) (i : StrandInfo) (j : Nat) : State :=
  match i.core.bind s.coreAt with
  | none => s
  | some c =>
    let inc := s.card.nextIncarnation c.num (Config.choice s.draws) i
    let members := (l.strandsOf h.index).filterMap StrandInfo.core
    let t := (s.setCore (c.start l h i j inc members)).onCore c.num fun s => s.acquireAt 3
    let k := t.card.mapStrand l.id i.index fun i => { i with ran := true, inc := inc, past := i.incarnations }
    { t with card := (k.setIncarnation c.num inc).wakeCluster c.num }

/-- A sheaf of a launch runs. -/
def Launch.runSheaf (l : Launch) (sheaf : Nat) : Launch :=
  { l with sheaves := l.sheaves.map fun h => if h.index = sheaf then { h with phase := .running } else h }

/-- STRAND_START (R28, R406): the strands of a placed sheaf start together. -/
def execStrandStart (launch : BitVec 16) (sheaf : Nat) (s : State) : Host.Outcome State Fault Refusal :=
  match s.card.launchAt launch with
  | none => .next s
  | some l => match l.sheaves.find? fun h => h.index == sheaf with
    | none => .next s
    | some h =>
      let is := l.strandsOf sheaf
      if !s.sheafDue l h || is.any StrandInfo.stopped then .next s
      else
        let t := (is.zipIdx).foldl (fun s p => s.startStrand l h p.1 p.2) s
        .next { t with card := t.card.mapLaunch launch fun l => l.runSheaf sheaf }

/-- Where the strand in focus enters on resumption (R328): in supervisor mode at the class-13 vector, parked (R32), with the causes that
were kept for it (R330, R335), of reports the first 8 (R316), and with what its front end may not use before an IFENCE (R340). -/
def Core.resume (c : Core) (img recorded : Nat) (kept : List Exc) (code : Memory) : Core :=
  let x : Exc := ⟨13, 1, BitVec.ofNat 64 img, c.cycle - BitVec.ofNat 64 recorded⟩
  { c with
    pc := vectorOf c.tvec 13
    ps := c.ps ||| 0x8000#64
    epc := 0
    cause := causeWord x
    faddr := x.faddr
    finfo := x.finfo
    parked := .resuming
    machineChecks := kept.filter fun k => k.cls == 15
    reports := (kept.filter fun k => k.cls != 15).take 8
    codeView := code
    fw := if c.dfltTable then [x] else [] }

/-- A strand is entered again: its new start state (DEDUCED, log entry 26), its image's PREACK area, its entry. Reports for which its core has
no room go on from their controllers (R316). -/
def State.resumeStrand (s : State) (l : Launch) (h : Sheaf) (i : StrandInfo) (j n : Nat) : State :=
  let img := l.img + i.index * 2 ^ 20
  (s.startStrand l h i j).onCore n fun s =>
    let recorded := s.imageWord (img + 0x118)
    let t := s.restoreArea img
    let rest := (i.kept.filter fun k => k.cls != 15).drop 8
    rest.foldl (fun s x => ({ s with card := { s.card with
      reports := s.card.reports ++ [⟨n, s.core.strand, x, s.card.packets⟩] } } : State).countPacket)
      { t with core := t.core.resume img recorded i.kept i.code }

/-- RESUMPTION_ENTRY (R328, R425): the sheaf runs when the last of its strands that were stopped has been entered. -/
def execResumptionEntry (launch : BitVec 16) (strand : Nat) (s : State) : Host.Outcome State Fault Refusal :=
  match s.card.launchAt launch with
  | none => .next s
  | some l => match (l.strands.find? fun i => i.index == strand && i.stopped) with
    | none => .next s
    | some i => match l.sheaves.find? fun h => h.index == i.sheaf, i.core with
      | some h, some n =>
        let is := l.strandsOf h.index
        let due : Bool := (match h.phase with | .decided d => decide (d ≤ s.card.clockOf l.colour) | _ => false) &&
          (s.coreAt n).any Core.quiet && !s.card.restitching n
        if !due then .next s
        else
          let t := s.resumeStrand l h i ((is.findIdx? fun k => k.index == strand).getD 0) n
          let t : State := { t with card := t.card.mapStrand launch strand fun i => { i with stopped := false, kept := [], code := [] } }
          .next { t with card := t.card.mapLaunch launch fun l =>
            if (l.strandsOf h.index).any StrandInfo.stopped then l else l.runSheaf h.index }
      | _, _ => .next s

/-! ### Patience and reservations -/

/-- The patience of a pair launch is counted on card 0 (R412). -/
def State.countsPatience (s : State) (l : Launch) : Bool := l.pair == .single || s.card.bridge.cardZero

/-- A launch without a reservation on the card reserves cores (R413). -/
def State.reserve (s : State) (id : BitVec 16) : State :=
  match s.card.launchAt id with
  | none => s
  | some l => match s.card.partition l.colour, l.reservation with
    | none, _ => s
    | _, some _ => s
    | some p, none => { s with card := s.card.mapLaunch id fun m => { m with
        reservation := some ⟨s.card.chooseReserved p l, s.card.clockOf l.colour⟩ } }

/-- PATIENCE_EXPIRY (R413, R438). -/
def execPatienceExpiry (launch : BitVec 16) (s : State) : Host.Outcome State Fault Refusal :=
  match s.card.launchAt launch with
  | none => .next s
  | some l => match l.headSince with
    | none => .next s
    | some t =>
      let held : Bool := l.reservation.isSome && (l.pair == .single || (s.peer.launchAt launch).all fun m => m.reservation.isSome)
      if l.pat = 2 ^ 32 - 1 ∨ held = true ∨ s.card.clockOf l.colour < t + l.pat ∨ s.countsPatience l = false ∨ l.waiting = false then
        .next s
      else
        let u := (s.reserve launch).reportReservations s.card
        .next (if l.pair = .single then u else u.onPeer fun u => (u.reserve launch).reportReservations u.card)

/-- Some strands of a sheaf have been resumed, and some not yet. -/
def Launch.mixed (l : Launch) (n : Nat) : Bool :=
  (l.strandsOf n).any StrandInfo.stopped && (l.strandsOf n).any fun i => !i.stopped && !i.ended

/-- A sheaf that has been given its cores and has not started loses them when its partition is pre-empted (DESIGN CHOICE, log entry 15). -/
def Launch.undecide (l : Launch) : Launch :=
  let decided (n : Nat) : Bool := !l.mixed n && l.sheaves.any fun h => h.index == n && (match h.phase with | .decided _ => true | _ => false)
  let back (n : Nat) : SheafPhase := if (l.strandsOf n).any StrandInfo.stopped then .preempted else .waiting
  { l with
    sheaves := l.sheaves.map fun h => if decided h.index then { h with phase := back h.index } else h
    strands := l.strands.map fun i => if decided i.sheaf then { i with core := none } else i }

/-- The members of segments that no longer stand on a core; an inner segment without any is unbound. -/
def Card.cleanSegments (k : Card) (colour : Nat) : Card :=
  let here (g : Segment) (m : SyMember) : SyMember := match k.launchAt g.launch with
    | some l => if l.colour = colour ∧ (l.strands.any fun i => i.index == m.index && i.core.isNone) = true then { m with core := none } else m
    | none => m
  let segs := k.segments.map fun g => { g with members := g.members.map (here g) }
  { k with segments := segs.filter fun g => match k.launchAt g.launch with
      | some l => l.colour != colour || decide (g.level < l.sheafLevel) || g.members.any fun m => m.core.isSome
      | none => true }

/-- Pre-emption of a partition begins (R420, R421): nothing more is placed, and the signal goes out. -/
def Card.beginPreemption (k : Card) (colour : Nat) (first : Option (BitVec 16)) (reply : Option (Nat × Nat)) (retiring : Option Nat) : Card :=
  let k : Card := { k with launches := k.launches.map fun l => if l.colour = colour then l.undecide else l }
  let k := (k.cleanSegments colour).undoRegions
  k.mapPartition colour fun p => { p with
    preempting := some (k.clockOf colour)
    firstUp := if first.isSome then first else p.firstUp
    reply := reply
    retiring := retiring }

/-- Every launch of a partition has an image area (R420). -/
def Card.preemptible (k : Card) (colour : Nat) : Bool := k.launches.all fun l => l.colour != colour || l.img != 0

/-- The occupants of a launch's reserved cores on a card are of lower priority. -/
def Card.occupantsLower (k : Card) (l : Launch) : Bool :=
  (l.reservation.map Reservation.cores).any fun cs => cs.all fun n => (k.occupantPrio n).all fun q => decide (q < l.prio)

/-- A launch's reservation has freed: no reserved core is occupied, and sheaves that wait can be placed (R414, R469). -/
def Card.freed (k : Card) (id : BitVec 16) : Bool :=
  (k.launchAt id).any fun l => !((l.reservation.map Reservation.cores).getD []).any k.occupied &&
    (k.partition l.colour).any fun p => (k.tryPlace p l 0).isSome

/-- R414 on one card: pre-emption of the launch's partition there, when its reservation has not freed: its cores are occupied, or a channel of
another launch keeps it out (R469). The launches whose sheaves occupy the cores return to the heads of their priorities. -/
def State.preemptFor (s : State) (id : BitVec 16) : State :=
  match s.card.launchAt id with
  | none => s
  | some l =>
    let cs := (l.reservation.map Reservation.cores).getD []
    if !s.card.freed id then
      let back (m : Launch) : Launch := if m.cores.any cs.contains then { m with front := true } else m
      let k : Card := { s.card with launches := s.card.launches.map back }
      { s with card := k.beginPreemption l.colour (some id) none none }
    else s

/-- Whether R414 pre-empts on a card for a launch. -/
def Card.canPreemptFor (k : Card) (id : BitVec 16) : Bool := (k.launchAt id).any fun l => k.occupantsLower l && k.preemptible l.colour

/-- RESERVATION_EXPIRY (R414). -/
def execReservationExpiry (launch : BitVec 16) (s : State) : Host.Outcome State Fault Refusal :=
  match s.card.launchAt launch with
  | none => .next s
  | some l => match l.reservation with
    | none => .next s
    | some r =>
      let busy : Bool := (s.card.partition l.colour).all fun p => p.preempting.isSome || p.preempted || p.firstUp.isSome
      if s.card.clockOf l.colour < r.since + l.pat ∨ s.countsPatience l = false ∨ busy = true ∨ l.waiting = false ∨
          (l.pair = .reserved ∧ ((s.peer.launchAt launch).any fun m => m.pair == .reserved) = true) then .next s
      else if l.pair = .single then
        if s.card.freed launch then .next s
        else if s.card.canPreemptFor launch then .next (s.preemptFor launch)
        else .next { s with card := s.card.mapLaunch launch fun l => l.giveUp 3 }
      else if s.card.freed launch ∧ s.peer.freed launch then .next s
      else if s.card.canPreemptFor launch ∧ s.peer.canPreemptFor launch then
        .next ((s.preemptFor launch).onPeer fun s => s.preemptFor launch)
      else .next { s with
        card := s.card.mapLaunch launch fun l => l.giveUp 3
        peer := s.peer.mapLaunch launch fun l => l.giveUp 3 }

/-- PEER_RESERVATION_REPORT (R412): card 0 commits when both cards have reserved; when card 1 does not have the record, the launch is
refused. -/
def execPeerReservationReport (launch : BitVec 16) (s : State) : Host.Outcome State Fault Refusal :=
  match s.card.launchAt launch with
  | none => .next s
  | some l =>
    if l.pair = .single ∨ s.card.bridge.cardZero = false then .next s
    else match s.peer.launchAt launch with
      | none => if l.first.isNone then .next { s with card := s.card.mapLaunch launch fun l => l.giveUp 8 } else .next s
      | some m =>
        if l.pair = .reserved ∧ m.pair = .reserved ∧ s.card.bridge.up = true then
          .next { s with
            card := s.card.mapLaunch launch fun l => { l with pair := .committed }
            peer := s.peer.mapLaunch launch fun l => { l with pair := .committed } }
        else .next s

/-! ### The end of a launch -/

/-- An object is dropped as OBJDROP does, by the dispatcher: without a strand's own windows (R302). -/
def State.dropObjectOf (s : State) (asid colour k : Nat) (o : ObjEntry) : State :=
  let t := ((s.clusterAt k).linesIn asid o).foldl (fun s tag => s.writeBackLine k colour tag) s
  let t := t.staleObject k o
  let c := t.clusterAt k
  t.setCluster k { c with objects := c.objects.erase o }

/-- The object entries of a launch, in every cluster. -/
def State.dropObjectsOf (s : State) (l : Launch) : State :=
  (List.range 32).foldl (fun s k => ((s.clusterAt k).objects.filter fun o => o.launch == l.id).foldl
    (fun s o => s.dropObjectOf l.asid l.colour k o) s) s

/-- The L2 lines that the objects of a launch would merge while the host may hold them. -/
def State.objectsHeld (s : State) (l : Launch) : List Nat :=
  if s.card.hostLines.isEmpty then []
  else (List.range 32).flatMap fun k => ((s.clusterAt k).objects.filter fun o => o.launch == l.id).flatMap fun o =>
    ((s.clusterAt k).linesIn l.asid o).filter s.card.hostLines.contains

/-- LAUNCH_END (R409): every strand has ended, and for card 0 of a pair the peer has reported its end. -/
def execLaunchEnd (launch : BitVec 16) (s : State) : Host.Outcome State Fault Refusal :=
  match s.card.launchAt launch with
  | none => .next s
  | some l =>
    let peerEnded := l.pair == .single || !s.card.bridge.cardZero || (s.peer.launchAt launch).all Launch.finished
    if l.finished || !peerEnded || l.strands.any (fun i => !i.ended) then .next s
    else match s.objectsHeld l with
      | _ :: _ => .next (s.snoop (s.objectsHeld l))
      | [] =>
        let t := s.dropObjectsOf l
        let k := t.card.mapLaunch launch fun l => { l with
          last := s.card.clockOf l.colour
          finished := true
          headSince := none
          reservation := none
          strands := l.strands.map fun i => { i with core := none }
          sheaves := l.sheaves.map fun h => { h with phase := .ended } }
        let k := k.mapPartition l.colour fun p => { p with
          saved := p.saved.filter fun g => g.launch != launch
          firstUp := if p.firstUp = some launch then none else p.firstUp }
        .next { t with card := { k with
          segments := k.segments.filter fun g => g.launch != launch
          queues := k.queues.filter fun q => q.launch != launch }.undoRegions }

/-- Work that strands of a launch have left on a card and that may still enter a side log, and its entries not yet applied or discarded
(R338). -/
def Card.leaves (k : Card) (cores : List Core) (id : BitVec 16) : Bool :=
  (cores.any fun c => c.posts.any fun p => strandLaunch p.strand == id) || (k.flight.any fun p => strandLaunch p.strand == id) || (k.jobs.any fun j => strandLaunch j.post.strand == id) ||
    (k.sideLogs.any fun l => l.entries.any fun e => e.state == .pending && strandLaunch e.post.strand == id)

/-- The record's fields of both cards of a pair launch together. -/
def Launch.joined (l : Launch) (m : Option Launch) : Launch :=
  match m with
  | none => l
  | some m => { l with
      strands := l.strands ++ m.strands
      status := max l.status m.status
      preempts := l.preempts + m.preempts
      discards := l.discards + m.discards
      undelivered := l.undelivered + m.undelivered
      cause := match l.cause, m.cause with
        | some a, some b => if a.2.2 ≤ b.2.2 then some a else some b
        | some a, none => some a
        | none, b => b }

/-- COMPLETION_RECORD_WRITE (R416, R417, R338). -/
def execCompletionRecordWrite (launch : BitVec 16) (s : State) : Host.Outcome State Fault Refusal :=
  match s.card.launchAt launch with
  | none => .next s
  | some l =>
    if !l.finished || (l.pair != .single && !s.card.bridge.cardZero) || s.card.leaves (s.core :: s.card.cores) launch ||
        (l.pair != .single && s.peer.leaves s.peer.cores launch) then
      .next s
    else match s.completionHeld l with
      | _ :: _ => .next (s.snoop (s.completionHeld l))
      | [] =>
        let l := l.joined (if l.pair = .single then none else s.peer.launchAt launch)
        let t := s.writeCompletion l (if l.status = 0 then 1 else l.status)
        .next { t with
          card := { t.card with launches := t.card.launches.filter fun m => m.id != launch }
          peer := if l.pair = .single then t.peer else { t.peer with launches := t.peer.launches.filter fun m => m.id != launch } }

end Sys2Proof.Machine
end

