-- ==== Sys2Proof/Machine/Flits.lean ====
section
/-! DEFINITION. Flits of the bridge and their retry (R439, R440), the form of a transaction (R441), and the transactions of a colour that
ports hold (R428). -/

namespace Sys2Proof.Machine

/-! ### Flits -/

/-- CRC-64/ECMA-182 (R439): polynomial 0x42F0E1EBA9EA3693, from 0, each byte from its most significant bit. -/
def crcBit (c : BitVec 64) : BitVec 64 := if c.msb then (c <<< 1) ^^^ 0x42F0E1EBA9EA3693#64 else c <<< 1

def crcByte (c : BitVec 64) (b : Byte) : BitVec 64 :=
  crcBit (crcBit (crcBit (crcBit (crcBit (crcBit (crcBit (crcBit (c ^^^ (b.setWidth 64 <<< 56)))))))))

def crc64 (bs : List Byte) : BitVec 64 := bs.foldl crcByte 0#64

/-- A field of n bytes of a flit. -/
def flitField (bs : List Byte) (off n : Nat) : Nat := ofBytes ((bs.drop off).take n)

/-- Header, kind, sequence number and ack word of a flit. -/
def flitKind (bs : List Byte) : Nat := flitField bs 0 2 / 2 ^ 14
def flitSeq (bs : List Byte) : Nat := flitField bs 0 2 % 2 ^ 12
def flitAck (bs : List Byte) : Nat := flitField bs 2 2

/-- A flit that a receiver does not discard (R439). -/
def flitOk (bs : List Byte) : Bool :=
  bs.length == 256 && flitKind bs != 3 && flitField bs 0 2 / 2 ^ 12 % 4 == 0 && flitAck bs / 2 ^ 12 % 4 == 0 && flitField bs 244 4 == 0 &&
    flitField bs 248 8 == (crc64 (bs.take 248)).toNat

/-- A flit with its checksum. -/
def makeFlit (kind seq ack : Nat) (slots : List (List Byte)) : List Byte :=
  let body := toBytes 2 (kind * 2 ^ 14 + seq % 2 ^ 12) ++ toBytes 2 ack ++ (slots.flatten ++ List.replicate 240 0#8).take 240 ++ toBytes 4 0
  body ++ toBytes 8 (crc64 body).toNat

/-- The ack word for a sequence number: valid, and nak or not. -/
def ackWord (nak : Bool) (seq : Nat) : BitVec 32 := BitVec.ofNat 32 (2 ^ 15 + (if nak then 2 ^ 14 else 0) + seq % 2 ^ 12)

def State.port (s : State) (n : Nat) : Port := s.card.bridge.ports.toList.getD n Port.reset

def State.setPort (s : State) (n : Nat) (p : Port) : State :=
  if h : n < 4 then { s with card := { s.card with bridge := { s.card.bridge with ports := s.card.bridge.ports.set n p h } } } else s

/-- The flits that an ack covers leave the replay buffer (R440). -/
def Port.acknowledge (p : Port) (seq : Nat) : Port :=
  { p with replay := p.replay.filter fun f => decide (2048 ≤ (seq + 4096 - f.seq % 4096) % 4096) }

/-- The flits from a refused one on are sent again (R440). -/
def Port.refusedFrom (p : Port) (seq : Nat) : Port :=
  let again (f : Flit) : Bool := decide ((f.seq + 4096 - seq % 4096) % 4096 < 2048)
  { p with
    replay := p.replay.map fun f => if again f then { f with tries := f.tries + 1 } else f
    wire := p.wire ++ (p.replay.filter again).map Flit.bytes
    replayed := p.replayed + (p.replay.filter again).length }

/-- A flit of a kind is sent with the first ack word that waits, and kept until it is acknowledged; a nak acknowledges nothing (R440). -/
def Port.sendFlit (p : Port) (kind : Nat) (slots : List (List Byte)) : Port :=
  let ack := ((p.outbox.head?).map BitVec.toNat).getD 0
  let bytes := makeFlit kind p.nextSeq ack slots
  { p with
    replay := p.replay ++ [⟨p.nextSeq, bytes, 0⟩]
    wire := p.wire ++ [bytes]
    nextSeq := (p.nextSeq + 1) % 4096
    outbox := p.outbox.tail
    unacked := if p.outbox.isEmpty || ack.testBit 14 then p.unacked else 0 }

/-- A port whose replay buffer is full sends nothing new (R440). -/
def Port.full (p : Port) : Bool := decide (512 ≤ p.replay.length)

/-- A control flit carries an ack word of its own: a nak, or an ack after 64 flits (R440). -/
def Port.sendAck (p : Port) : Port := if p.full || p.outbox.isEmpty then p else p.sendFlit 2 []

/-- The ack word of a flit is obeyed. -/
def Port.takeAck (p : Port) (ack : Nat) : Port :=
  if !ack.testBit 15 then p
  else if ack.testBit 14 then p.refusedFrom (ack % 2 ^ 12)
  else p.acknowledge (ack % 2 ^ 12)

/-- An ack word that is a nak. -/
def isNak (w : BitVec 32) : Bool := w.getLsbD 14

/-- A flit that failed, came out of order or finds no buffer is refused: the nak names the sequence number that is missing (DESIGN CHOICE, log
entry 18), and goes before an ack that waits. -/
def Port.refuse (p : Port) : Port := { p with outbox := ackWord true p.expected :: p.outbox.filter fun w => !isNak w }.sendAck

/-- A flit at a port (R439, R440), which has a buffer for it or not. -/
def Port.receive (p : Port) (bs : List Byte) (room : Bool) : Port :=
  if !flitOk bs then { p.refuse with failed := p.failed + 1 }
  else
    let p := p.takeAck (flitAck bs)
    if flitKind bs = 0 then p
    else if flitSeq bs ≠ p.expected ∨ room = false then { p.refuse with refused := p.refused + 1 }
    else
      let q : Port := { p with
        expected := (p.expected + 1) % 4096
        outbox := p.outbox.filter isNak ++ [ackWord false (flitSeq bs)]
        unacked := p.unacked + 1
        slots := if flitKind bs = 1 then p.slots ++ chunks 16 ((bs.drop 4).take 240) else p.slots }
      if 64 ≤ q.unacked then q.sendAck else q

/-- A port that carries traffic. -/
def Port.live (p : Port) : Bool := p.working && !p.retraining

/-! ### Transactions -/

/-- A transaction (R441): its header's fields and its payload. -/
structure Transaction where
  kind : Nat
  colour : Nat
  asid : Nat
  tag : Nat
  op : Nat
  status : Nat
  source : Nat
  va : Nat
  payload : List Byte
deriving DecidableEq, Repr

/-- The next transaction of a port, with the slots behind it; slots that are no header are idle, and a transaction whose payload has not
all arrived is not ready. -/
def nextTransaction : List (List Byte) → Option (Transaction × List (List Byte))
  | [] => none
  | b :: rest =>
    let h := ofBytes b
    let kind := h / 2 ^ 124
    let len := h / 2 ^ 72 % 2 ^ 8
    if kind = 0 ∨ 7 < kind then nextTransaction rest
    else if rest.length < len then none
    else some (⟨kind, h / 2 ^ 120 % 2 ^ 4, h / 2 ^ 108 % 2 ^ 12, h / 2 ^ 92 % 2 ^ 16, h / 2 ^ 84 % 2 ^ 8, h / 2 ^ 80 % 2 ^ 4,
      h / 2 ^ 52 % 2 ^ 20, h % 2 ^ 52, (rest.take len).flatten⟩, rest.drop len)

/-- The slots of a transaction. -/
def Transaction.slots (t : Transaction) : List (List Byte) :=
  let pieces := chunks 16 t.payload
  toBytes 16 (t.kind * 2 ^ 124 + t.colour * 2 ^ 120 + t.asid * 2 ^ 108 + t.tag * 2 ^ 92 + t.op * 2 ^ 84 + t.status * 2 ^ 80 +
    pieces.length * 2 ^ 72 + t.source * 2 ^ 52 + t.va) :: pieces

/-- The transactions that slots hold, for as many slots as the fuel. -/
def transactionsIn : Nat → List (List Byte) → List Transaction
  | 0, _ => []
  | n + 1, bs => match nextTransaction bs with
    | some (t, rest) => t :: transactionsIn n rest
    | none => []

/-- The transactions that a port has taken and not served, and those that it has sent and the peer has not acknowledged (R428). -/
def Port.transactions (p : Port) : List Transaction :=
  transactionsIn p.slots.length p.slots ++ p.replay.flatMap fun f =>
    if flitKind f.bytes = 1 then transactionsIn 15 (chunks 16 ((f.bytes.drop 4).take 240)) else []

/-- Those of a colour at every port of a card. -/
def Bridge.packets (b : Bridge) (colour : Nat) : Nat :=
  (b.ports.toList.map fun p => p.transactions.countP fun t => t.colour == colour).sum

end Sys2Proof.Machine
end

