-- ==== Sys2Proof/Machine/Recovery.lean ====
section
/-! DEFINITION. Pre-emption of partitions (R420-R422), resumption, restitching (R430) and core retirement (R444, R445): the commands and
their events. -/

namespace Sys2Proof.Machine

/-! ### Commands -/

/-- PRE_EMPT (R420, R437). One that meets a pre-emption under way waits for its end. -/
def execPreEmpt (fn : Nat) (s : State) : Host.Outcome State Fault Refusal :=
  s.command fn 0x0A fun c s =>
    let colour := c.op 1
    if 16 ≤ colour then s.malformed
    else if !ownColour fn colour then s.notPermitted
    else match s.card.partition colour with
      | none => s.refused
      | some p =>
        if !s.card.preemptible colour || p.reply.isSome then s.refused
        else if p.preempted && p.preempting.isNone then s.done 0
        else if p.preempting.isSome then (s.mapPartition colour fun p => { p with reply := some (fn, c.tag) }).replyLater
        else ({ s with card := s.card.beginPreemption colour none (some (fn, c.tag)) none } : State).replyLater

/-- RESUME (R425, R437): from the next round on the pre-empted sheaves are placed again. -/
def execResumePartition (fn : Nat) (s : State) : Host.Outcome State Fault Refusal :=
  s.command fn 0x0B fun c s =>
    let colour := c.op 1
    if 16 ≤ colour then s.malformed
    else if !ownColour fn colour then s.notPermitted
    else match s.card.partition colour with
      | none => s.refused
      | some p =>
        if p.preempting.isSome then s.refused
        else (s.mapPartition colour fun p => { p with preempted := false }).done 0

/-- The partition that holds a logical core. -/
def Card.coreOwner (k : Card) (n : Nat) : Option Partition := k.partitions.find? fun p => p.hasCore n

/-- A core is retired once its partition stands still, or without one (R445): onto its cluster's spare, a core after its own reset, which has had
no errors; with the spare in use, the cluster leaves the partition, and the event names it. -/
def State.retireNow (s : State) (n : Nat) : State :=
  match clusterOf n, s.coreAt n with
  | some k, some c =>
    if s.card.service.retired.any fun m => clusterOf m == some k then
      match s.card.coreOwner n with
      | none => s
      | some p => (s.mapPartition p.colour fun p => { p with clusters := p.clusters &&& ~~~(1#32 <<< k) }).pushEvent (p.colour + 1) 2 p.colour 0
          (machineCheckOf 3 k 0)
    else (s.setCore { Core.reset n c.kind with cycle := BitVec.ofNat 64 (Config.choice s.draws) }).mapService fun v =>
      { v with retired := v.retired ++ [n], coreErrors := v.coreErrors.filter fun q => q.1 != n }
  | _, _ => s

/-- Core retirement begins (R445): class 15 to the strand, then the pre-emption. -/
def State.beginRetirement (s : State) (n : Nat) (p : Partition) (reply : Option (Nat × Nat)) : State :=
  let t := match s.coreAt n with
    | some c =>
      let x := machineCheckOf 3 n 0
      if c.active then (s.machineEvent (some c.colour.toNat) c.strand x).sendMachineCheck c.strand x else s
    | none => s
  { t with card := t.card.beginPreemption p.colour none reply (some n) }

/-- RETIRE_CORE (R437, R445). -/
def execRetireCore (fn : Nat) (s : State) : Host.Outcome State Fault Refusal :=
  s.command fn 0x09 fun c s =>
    let n := c.op 1
    if fn ≠ 0 then s.notPermitted
    else if 256 ≤ n then s.malformed
    else match s.card.coreOwner n with
      | none => (s.retireNow n).done 0
      | some p =>
        if !s.card.preemptible p.colour || p.preempting.isSome then s.refused
        else (s.beginRetirement n p (some (fn, c.tag))).replyLater

/-- The lines of the sets that a slice has mapped out go to HBM (R445). -/
def Card.dropMappedOut (k : Card) : Card :=
  if k.service.mappedOut.isEmpty then k
  else (k.l2.filter fun l => k.service.mappedOut.contains (l2Slice l.tag, l2Set l.tag) && !(l.dmask != 0 && k.lockedLine l.tag)).foldl
    (fun k l => k.evictL2 l.tag) k

/-- CORRECTED_ERROR (R444, R445): counted; the 64th of a core's arrays within 2^30 clocks retires the core, when its partition can be
pre-empted or it has none; a set of L2 that is mapped out writes its dirty bytes to HBM. -/
def execCorrectedError (kind unit set : Nat) (s : State) : Host.Outcome State Fault Refusal :=
  let t := s.mapService fun v => v.correct kind unit set s.card.clocks[0]
  let t : State := { t with card := t.card.dropMappedOut }
  if !coreArray kind unit || decide ((t.card.service.coreErrors.filter fun q => q.1 == unit).length < 64) || decide (256 ≤ unit) then .next t
  else match t.card.coreOwner unit with
    | none => .next (t.retireNow unit)
    | some p =>
      if !t.card.preemptible p.colour || p.preempting.isSome then .next t
      else
        let u := t.mapService fun v => { v with coreErrors := v.coreErrors.filter fun q => q.1 != unit }
        .next (u.beginRetirement unit p none)

/-! ### The end of a pre-emption -/

/-- A core that belongs to a partition or runs for its colour. -/
def Partition.holds (p : Partition) (c : Core) : Bool := p.hasCore c.num || (c.run != .idle && c.colour.toNat == p.colour)

/-- A core whose strand has stopped or ended and whose copies, posts and stores have gone (R421, step 4). -/
def Core.drainedOut (c : Core) : Bool :=
  (c.run == .idle || c.run == .stopped) && c.posts.isEmpty && c.drain.isEmpty &&
    c.copies.toList.all fun k => k.queue.isEmpty

/-- The packets of a colour that the routers have accepted and not delivered, the sum of their counters of the colour (R428): posts,
sketch operations, messages, window counts, deferred reports, rendezvous updates, stores on their way out of a core, and transactions of the
bridge. -/
def State.colourPackets (s : State) (colour : Nat) : Nat :=
  let ids := (s.card.launches.filter fun l => l.colour == colour).map Launch.id
  let ours (w : Word) : Bool := ids.contains (strandLaunch w)
  s.card.flight.countP (fun p => p.colour == colour) + s.card.jobs.countP (fun j => j.post.colour == colour) +
    s.card.messages.countP (fun m => m.2 == colour) + s.card.undeliverable.countP (fun m => ours m.1.sender) +
    s.card.returns.countP (fun r => ours r.strand) + s.card.reports.countP (fun r => ours r.strand) +
    s.card.rendezvous.countP (fun r => ours r.strand) + (s.core :: s.card.cores).countP (fun c => c.sent && c.colour.toNat == colour) +
    s.card.bridge.packets colour

/-- No packet of the colour is on its way. -/
def State.colourEmpty (s : State) (colour : Nat) : Bool := s.colourPackets colour == 0

/-- The image of a stopped strand takes what changed in its stash since its PREACK (R325, R421, step 5), and the window counts that have
returned since (R246, DEDUCED, log entry 58), and the core is free. -/
def State.finishImage (s : State) (n : Nat) : State :=
  s.onCore n fun s =>
    match s.card.launchAt s.core.launchOf with
    | none => { s with core := { s.core with run := .idle } }
    | some l =>
      let img := l.img + s.core.strandIndex * 2 ^ 20
      let t := ((s.writeGranules img).mergeMap img).putImage (img + 0x120) (padBytes 256 (s.core.windowCounts.flatMap WindowCount.entry))
      { t with core := { t.core with run := .idle, stash := { t.core.stash with changed := 0 } } }

/-- A launch whose strands have stopped: its sheaves are pre-empted, or ended where every strand has ended. A sheaf that had begun to run again,
only some of its strands having been entered, suffers the pre-emption too (R415); one that had only been given its cores does not. -/
def Launch.preempt (l : Launch) : Launch :=
  let hit (n : Nat) : Bool := (l.strandsOf n).any StrandInfo.stopped
  let done (h : Sheaf) : Bool := h.phase != .waiting && (l.strandsOf h.index).all StrandInfo.ended
  let ran (h : Sheaf) : Bool := match h.phase with
    | .running => true
    | .decided _ => true
    | _ => false
  let any := l.sheaves.any fun h => ran h && hit h.index
  { l with
    preempts := if any then l.preempts + 1 else l.preempts
    sheaves := l.sheaves.map fun h => if done h then { h with phase := .ended } else if hit h.index then { h with phase := .preempted } else h
    strands := l.strands.map fun i => { i with core := none } }

/-- The Owlwire state of the colour's segments is saved (R421, step 6). -/
def Card.saveSegments (k : Card) (colour : Nat) : Card :=
  let mine (g : Segment) : Bool := (k.launchAt g.launch).any fun l => l.colour == colour
  let segs := (k.segments.filter mine).map fun g => { g with members := g.members.map fun m => { m with core := none } }
  ({ k with segments := k.segments.filter fun g => !mine g } : Card).mapPartition colour fun p =>
    { p with saved := segs ++ p.saved.filter fun g => !segs.any fun h => h.same g }

/-- COLOUR_DRAIN_COMPLETE (R421, R438): every strand has stopped or ended, nothing of the colour is under way; the images are finished, the
segments saved, the cores free, and a command that waits for it completes. -/
def execColourDrainComplete (colour : Nat) (s : State) : Host.Outcome State Fault Refusal :=
  match s.card.partition colour with
  | none => .next s
  | some p =>
    let cores := (s.core :: s.card.cores).filter p.holds
    if p.preempting.isNone || !s.colourEmpty colour || cores.any (fun c => !c.drainedOut) then .next s
    else
      let stopped := (cores.filter fun c => c.run == .stopped).map Core.num
      let t := stopped.foldl (fun s n => s.finishImage n) s
      let k := t.card.applyEnds colour
      let k : Card := k.saveSegments colour
      let k : Card := { k with launches := k.launches.map fun l => if l.colour = colour then l.preempt else l }
      let k := k.undoRegions.mapPartition colour fun q => { q with
        preempting := none, preempted := p.reply.isSome && p.retiring.isNone, reply := none, retiring := none }
      let t : State := { t with card := k }
      let t := match p.retiring with
        | some n => t.retireNow n
        | none => t
      let t := t.pushEvent (colour + 1) 4 colour 0 ⟨0, 0, 0#64, 0#64⟩
      match p.reply with
      | some (fn, tag) => .next ((t.completeCommand fn tag 0 0).skipUnknown fn)
      | none => .next t

/-- PRE_EMPTION_PATIENCE_EXPIRY (R422): strands whose handler has not executed PREACK are ended. -/
def execPreEmptionPatienceExpiry (colour : Nat) (s : State) : Host.Outcome State Fault Refusal :=
  match s.card.partition colour with
  | none => .next s
  | some p => match p.preempting with
    | none => .next s
    | some t =>
      if s.card.clockOf colour < t + p.patience then .next s
      else
        let late := (s.core :: s.card.cores).filter fun c => c.active && c.colour.toNat == colour
        let u := late.foldl (fun s c => s.onCore c.num State.stopStrand) s
        .next (late.foldl (fun s c => { s with card := s.card.mapLaunch (strandLaunch c.strand) fun l => { l with status := max l.status 5 } }) u)

/-! ### Restitching -/

/-- RESTITCH (R430, R437): colour; rectangle with its row in [7:0], its column in [15:8], its rows in [23:16], its columns in [31:24];
topology 1 or 2. -/
def execRestitch (fn : Nat) (s : State) : Host.Outcome State Fault Refusal :=
  s.command fn 0x08 fun c s =>
    let colour := c.op 1
    let q := c.op 2
    let row := q % 2 ^ 8
    let col := q / 2 ^ 8 % 2 ^ 8
    let rows := q / 2 ^ 16 % 2 ^ 8
    let cols := q / 2 ^ 24 % 2 ^ 8
    let cores := (List.range rows).flatMap fun i => (List.range cols).map fun j => 16 * (row + i) + col + j
    if 16 ≤ colour ∨ 2 ^ 32 ≤ q ∨ rows = 0 ∨ cols = 0 ∨ 16 < row + rows ∨ 16 < col + cols ∨ (c.op 3 ≠ 1 ∧ c.op 3 ≠ 2) then s.malformed
    else if !ownColour fn colour then s.notPermitted
    else match s.card.partition colour with
      | none => s.refused
      | some p =>
        if cores.any fun n => !p.hasCore n || s.card.occupied n then s.refused
        else ({ s with card := { s.card with
          regions := s.card.regions ++ [⟨colour, row, col, rows, cols, c.op 3, false, some (fn, c.tag), none⟩] } } : State).replyLater

/-- RESTITCH_COMPLETE (R430). -/
def execRestitchComplete (region : Nat) (s : State) : Host.Outcome State Fault Refusal :=
  match s.card.regions[region]? with
  | none => .next s
  | some r =>
    if r.complete then .next s
    else
      let t : State := { s with card := { s.card with regions := s.card.regions.set region { r with complete := true, reply := none } } }
      match r.reply with
      | some (fn, tag) => .next ((t.completeCommand fn tag 0 0).skipUnknown fn)
      | none => .next t

end Sys2Proof.Machine
end

