-- ==== Sys2Proof/Machine/Bridge.lean ====
section
/-! DEFINITION. The bridge (R439-R443): flits and their retry, ports and training, and the transactions that arrive from the peer. A
strand's own loads, atomics, copies and messages to the peer act on it within their step; its stores wait for BRIDGE_ACKNOWLEDGEMENT. The
flits modelled here carry the transactions that arrive from outside, the replies to them, and acks (DESIGN CHOICE, log entry 18). -/

namespace Sys2Proof.Machine

/-! ### Failure -/

/-- The oldest store of a core, which is on its way to the peer, is dropped (R443). -/
def State.failPeer (s : State) (core : Nat) : State :=
  s.onCore core fun s => match s.core.drain.head?.bind fun e => e.writes.head? with
    | none => s
    | some w =>
      let t := ((s.dropPeerStore (lineTag w.tag)).closeDomain).passUpdates
      { t with core := t.core.popDrain }

/-- The stores to the peer that are under way when the bridge goes down fail. -/
def State.failRemotes (s : State) : State :=
  ((s.core :: s.card.cores).filter fun c => c.sentTo false).foldl (fun s c => s.failPeer c.num) s

/-- The bridge is down when a card has no working port (R442). -/
def State.checkBridge (s : State) : State :=
  let works (k : Card) : Bool := k.bridge.ports.toList.any Port.working
  let down (k : Card) : Card := { k with bridge := { k.bridge with up := false } }
  if !s.card.bridge.up || (works s.card && works s.peer) then s
  else ({ s with card := down s.card, peer := down s.peer } : State).failRemotes.onPeer State.failRemotes

/-- A port fails (R442). -/
def State.failPort (s : State) (port : Nat) : State :=
  let p := s.port port
  if !p.working then s
  else (s.setPort port { p with working := false, retraining := false, replay := [], wire := [], slots := [], outbox := [], unacked := 0 }).checkBridge

/-- A flit that has been replayed 16 times without an ack is a failure of its port (R440). -/
def State.checkTries (s : State) (port : Nat) : State :=
  if (s.port port).replay.any fun f => decide (16 ≤ f.tries) then s.failPort port else s

/-- The oldest flit that the peer's port has sent leaves the wire. -/
def State.takeWire (s : State) (port : Nat) : State :=
  let t := s.swap
  (t.setPort port { t.port port with wire := (t.port port).wire.tail }).swap

/-- FLIT_RECEIVE (R439, R440): the bytes are what arrives of the peer's oldest flit under way, at a port that has a buffer for it or not. -/
def execFlitReceive (port : Nat × Bool) (bytes : List Byte) (s : State) : Host.Outcome State Fault Refusal :=
  if s.card.bridge.up && (s.port port.1).live then
    let t := s.takeWire port.1
    .next ((t.setPort port.1 ((t.port port.1).receive bytes port.2)).checkTries port.1)
  else .next s

/-- ACK_RECEIVE (R440). -/
def execAckReceive (port seq : Nat) (s : State) : Host.Outcome State Fault Refusal :=
  if (s.port port).live then .next (s.setPort port ((s.port port).acknowledge seq)) else .next s

/-- NAK_RECEIVE (R440). -/
def execNakReceive (port seq : Nat) (s : State) : Host.Outcome State Fault Refusal :=
  if (s.port port).live then .next ((s.setPort port ((s.port port).refusedFrom seq)).checkTries port) else .next s

/-! ### Ports -/

/-- PORT_FAILURE (R440, R442). -/
def execPortFailure (port : Nat) (s : State) : Host.Outcome State Fault Refusal := .next (s.failPort port)

/-- PORT_DEGRADE (R442): the port retrains to 4 lanes. -/
def execPortDegrade (port : Nat) (s : State) : Host.Outcome State Fault Refusal :=
  let p := s.port port
  if p.live && p.lanes == 8 && decide (port < 4) then .next (s.setPort port { p with retraining := true, degrades := p.degrades + 1 })
  else .next s

/-- PORT_RETRAIN_COMPLETE (R442). -/
def execPortRetrainComplete (port : Nat) (s : State) : Host.Outcome State Fault Refusal :=
  let p := s.port port
  if p.working && p.retraining then .next (s.setPort port { p with retraining := false, lanes := 4 }) else .next s

/-- Every port of a card is tried again. -/
def Bridge.revive (b : Bridge) : Bridge := { b with ports := b.ports.map fun p => { p with working := true } }

/-- BRIDGE_TRAINING (R442): at reset and after the bridge has been down. -/
def execBridgeTraining (s : State) : Host.Outcome State Fault Refusal :=
  if s.card.bridge.up then .next s
  else .next ({ s with
    card := { s.card with bridge := s.card.bridge.revive }
    peer := { s.peer with bridge := s.peer.bridge.revive } } : State).train

/-! ### Transactions -/

/-- A transaction leaves in a payload flit. -/
def Port.send (p : Port) (t : Transaction) : Port := p.sendFlit 1 t.slots

/-- The answer to a request: a completion (6) or an acknowledgement (7), with the requester's tag. -/
def Transaction.answer (t : Transaction) (kind status : Nat) (payload : List Byte) : Transaction :=
  { t with kind := kind, status := status, payload := payload }

/-- A request of a kind is served at a port: nothing new is sent while 512 flits are unacknowledged (R440). One that would merge lines
that the host may hold waits, with a BISnp sent for each (R434). -/
def State.serve (s : State) (port kind : Nat) (f : Transaction → State → Option Transaction × State) :
    Host.Outcome State Fault Refusal :=
  let p := s.port port
  if !s.card.bridge.up || !p.live || p.full then .next s
  else match nextTransaction p.slots with
    | none => .next s
    | some (t, rest) =>
      if t.kind ≠ kind then .next s
      else
        let r := f t (s.setPort port { p with slots := rest })
        match s.heldBy r.2, r.1 with
        | [], none => .next r.2
        | [], some a => .next (r.2.setPort port ((r.2.port port).send a))
        | lines, _ => .next (s.snoop lines)

/-- The status of an access of the peer (R366, R441): the home's own tables decide. -/
def State.peerStatus (s : State) (a : Access) (t : Transaction) (n : Nat) : Nat :=
  let at_ (va : Nat) : Nat := match s.card.translate t.asid t.colour va with
    | none => 1
    | some l => match l.target with
      | .local _ => if a.allowed l.r l.w l.x then 0 else 2
      | _ => 1
  max (at_ t.va) (at_ (t.va + (n - 1)))

/-- A request of the peer that fails counts the malformed entry that its walk stopped at (R384). -/
def State.countRefused (s : State) (t : Transaction) : State := { s with card := s.card.countMalformed t.asid t.colour t.va }

/-- BRIDGE_READ: the line of the address goes back with its 8 payload slots, unless its data is uncorrectable. -/
def execBridgeRead (read : Nat × Bool) (s : State) : Host.Outcome State Fault Refusal :=
  s.serve read.1 1 fun t s =>
    let st := s.peerStatus .load t 1
    let line := t.va / 128 * 128
    if st ≠ 0 then (some (t.answer 6 st []), s.countRefused t)
    else if read.2 then (some (t.answer 6 3 []), s)
    else (some (t.answer 6 0 (s.homeBytes t.asid t.colour line 128)), s.unitRead none t.asid t.colour line 128)

/-- BRIDGE_WRITE: the payload performs at its home. -/
def execBridgeWrite (port : Nat) (s : State) : Host.Outcome State Fault Refusal :=
  s.serve port 2 fun t s =>
    let st := s.peerStatus .store t t.payload.length
    if st ≠ 0 then (some (t.answer 6 st []), s.countRefused t)
    else (some (t.answer 7 0 []), s.writeHomeBytes t.asid t.colour t.va t.payload)

/-- The operation and size of an atomic (R441), whose places within op the spec does not give: [2:0] the operation in the order of R119,
[3] unsigned, [4] a doubleword, [7:5] 0 (DESIGN CHOICE, log entry 18). -/
def peerAtomic (op compare : Nat) : AtomicOp :=
  match op % 8 with
  | 0 => .add
  | 1 => .min (op.testBit 3)
  | 2 => .max (op.testBit 3)
  | 3 => .and
  | 4 => .or
  | 5 => .xor
  | 6 => .swap
  | _ => .cas compare

/-- BRIDGE_ATOMIC: at the home L2, the first payload slot holding the operand and the new value of a compare and swap; status 3 when the old
value is uncorrectable. An operation that is none is refused (status 4). -/
def execBridgeAtomic (read : Nat × Bool) (s : State) : Host.Outcome State Fault Refusal :=
  s.serve read.1 3 fun t s =>
    let n := if t.op.testBit 4 then 8 else 4
    let st := s.peerStatus .atomic t n
    if st ≠ 0 then (some (t.answer 6 st []), s.countRefused t)
    else if 32 ≤ t.op then (some (t.answer 6 4 []), s)
    else if read.2 then (some (t.answer 6 3 []), s)
    else
      let old := ofBytes (s.homeBytes t.asid t.colour t.va n)
      let b := flitField t.payload 0 8 % 2 ^ (8 * n)
      let u := match (peerAtomic t.op (flitField t.payload 8 8)).apply (8 * n) old b with
        | some v => (s.unitRead none t.asid t.colour t.va n).writeHomeBytes t.asid t.colour t.va (toBytes n v)
        | none => s.unitRead none t.asid t.colour t.va n
      (some (t.answer 6 0 (toBytes 16 old)), u)

/-- BRIDGE_MESSAGE: handler, target and 48 bytes of payload, then the sender's s.strand in a fifth slot (DESIGN CHOICE, log entry 18). -/
def execBridgeMessage (port : Nat) (s : State) : Host.Outcome State Fault Refusal :=
  s.serve port 4 fun t s =>
    let m := messageOf (t.payload ++ List.replicate 64 0#8)
    (some (t.answer 7 0 []), { s with card := { s.card with
      messages := s.card.messages ++ [({ m with sender := BitVec.ofNat 64 (flitField t.payload 64 8) }, t.colour)] } })

/-- BRIDGE_COLLECTIVE: a chunk is taken by the link engines, whose exchange COLLECTIVE_PAIRING holds (R256). -/
def execBridgeCollective (port : Nat) (s : State) : Host.Outcome State Fault Refusal :=
  s.serve port 5 fun t s => (some (t.answer 7 0 []), s)

/-- A core with a store on its way to the peer: the store that a requester's tag names, by the core's number (R293 lets a core have one). -/
def State.peerSender (s : State) (tag : Nat) : Bool := (s.coreAt tag).any fun c => c.sentTo false

/-- BRIDGE_COMPLETION (R443): a store that failed is dropped; the loads and atomics of a strand end within their own steps. -/
def execBridgeCompletion (port : Nat) (s : State) : Host.Outcome State Fault Refusal :=
  s.serve port 6 fun t s => (none, if t.status ≠ 0 ∧ s.peerSender t.tag = true then s.failPeer t.tag else s)

/-- A core's store performs at its home at the peer; it waits there while the host may hold the line (R293, R434). -/
def State.acknowledgePeer (s : State) (core : Nat) : State :=
  if !s.peerSender core then s
  else
    let t := s.onCore core State.drainPerform
    match s.swap.heldBy t.swap with
    | [] => t
    | lines => (s.swap.snoop lines).swap

/-- The source of the oldest transaction that is outstanding on a port, whose transactions are delivered in order (R442). -/
def Bridge.oldestOn (b : Bridge) (port : Nat) : Option Nat := ((b.domains.filter fun d => d.2 == port).getLast?).map Prod.fst

/-- The port over which a core's store is acknowledged is that of its domain, where it is the oldest outstanding one; a port that has failed
meanwhile holds nothing up (R442). -/
def State.acknowledgeOn (s : State) (port core : Nat) : State :=
  match s.card.bridge.portOf core with
  | some p => if (p = port ∧ s.card.bridge.oldestOn port = some core) ∨ (s.port p).working = false then s.acknowledgePeer core else s
  | none => s

/-- BRIDGE_ACKNOWLEDGEMENT (R293, R441): one that has arrived in a flit, whose tag names the core, or the answer to the store under way of
a core whose domain uses the port. -/
def execBridgeAcknowledgement (answer : Nat × Nat) (s : State) : Host.Outcome State Fault Refusal :=
  let p := s.port answer.1
  if !s.card.bridge.up || !p.live then .next s
  else match nextTransaction p.slots with
    | some (t, rest) =>
      if t.kind = 7 then .next ((s.setPort answer.1 { p with slots := rest }).acknowledgePeer t.tag) else .next (s.acknowledgeOn answer.1 answer.2)
    | none => .next (s.acknowledgeOn answer.1 answer.2)

end Sys2Proof.Machine
end

