-- ==== Sys2Proof/Machine/Power.lean ====
section
/-! DEFINITION. Power states (R448), resets (R6, R23), and the device's SPDM answers (R447). -/

namespace Sys2Proof.Machine

/-! ### Power -/

/-- No strand of a live launch stands on the card. -/
def Card.empty (k : Card) : Bool := k.launches.all fun l => l.strands.all fun i => i.core.isNone

/-- The card limit in watts: the firmware's configuration, at most 800 (R448). -/
def cardLimit : Nat := min Config.cardLimit 800

/-- POWER_SAMPLE (R448): above the limit, or one more sample that is more than 5 percent below it. Of the 2^16 clocks since a sample above the
limit the engines may have paced any number, which is counted (R449; how many, a free value, log entry 27). -/
def execPowerSample (watts : Nat) (s : State) : Host.Outcome State Fault Refusal :=
  let w := s.card.power
  let paced := if w.above then Config.choice s.draws % (2 ^ 16 + 1) else 0
  .next { s with card := { s.card with
    power := { w with
      above := decide (cardLimit < watts)
      below := if 100 * watts < 95 * cardLimit then w.below + 1 else 0 }
    service := { s.card.service with pacedClocks := s.card.service.pacedClocks + paced } } }

/-- CLUSTER_GATE (R448): a cluster without a strand. -/
def execClusterGate (cluster : Nat) (s : State) : Host.Outcome State Fault Refusal :=
  let busy (n : Nat) : Bool := clusterOf n == some cluster && s.card.occupied n
  if 32 ≤ cluster ∨ ((List.range 256).any busy) = true then .next s
  else .next { s with card := { s.card with power := { s.card.power with gated := s.card.power.gated ||| (1#32 <<< cluster) } } }

/-- The package sleeps: every cluster is gated (R448). -/
def Card.sleepIn (k : Card) (p : PowerState) : Card := { k with power := { k.power with state := p, gated := 0xFFFFFFFF#32 } }

/-- IDLE_TIMEOUT (R448): no strand placed, no host access for 2^24 clocks. -/
def execIdleTimeout (s : State) : Host.Outcome State Fault Refusal :=
  if s.card.empty && s.card.power.state == .active && decide (s.card.power.lastUse + 2 ^ 24 ≤ s.card.clocks[0]) then
    .next { s with card := s.card.sleepIn .sleeping }
  else .next s

/-- WAKE (R448). -/
def execWake (s : State) : Host.Outcome State Fault Refusal :=
  .next { s with card := { s.card with power := { s.card.power with state := .active, lastUse := s.card.clocks[0] } } }

/-- D3HOT (R448): as P2; a card with a strand placed does not enter it (DESIGN CHOICE, log entry 27). -/
def execD3hot (s : State) : Host.Outcome State Fault Refusal :=
  if s.card.empty then .next { s with card := s.card.sleepIn .d3hot } else .next s

/-! ### Resets -/

/-- The firmware's granules read 0: the ASID context table and the hotness tables (R381, R391). -/
def clearFirmware (m : Memory) : Memory := m.filter fun c => decide (c.1 < firmwareGranule * 65536)

/-- PACKAGE_RESET (R6): every register of the package takes its reset value, and so do the ASID context table and the hotness tables; the
rest of HBM keeps its bytes (DESIGN CHOICE, log entry 27), and the bridge is down until it is trained (R442). -/
def execPackageReset (s : State) : Host.Outcome State Fault Refusal :=
  let cores := coresReset.filter fun c => c.num != s.core.num
  let t : State := { s with
    core := Core.reset s.core.num s.core.kind
    card := { Card.reset s.card.serial cores with hbm := clearFirmware s.card.hbm }
    peer := { s.peer with bridge := { s.peer.bridge with up := false } } }
  .next (t.onPeer State.failRemotes)

/-- CORE_RESET (R23): a core without a strand restarts its count of clocks, with every register at its reset value. -/
def execCoreReset (core : Nat) (s : State) : Host.Outcome State Fault Refusal :=
  match s.coreAt core with
  | none => .next s
  | some c => if c.run = .idle then .next (s.setCore (Core.reset c.num c.kind)) else .next s

/-! ### SPDM (R447) -/

/-- An answer over DOE. -/
def State.answerSpdm (s : State) (m : SpdmMessage) : State := { s with card := { s.card with spdm := s.card.spdm ++ [m] } }

/-- GET_VERSION: SPDM 1.3. -/
def execGetVersion (s : State) : Host.Outcome State Fault Refusal := .next (s.answerSpdm (.version 0x13))

/-- GET_CAPABILITIES. -/
def execGetCapabilities (s : State) : Host.Outcome State Fault Refusal := .next (s.answerSpdm .capabilities)

/-- NEGOTIATE_ALGORITHMS: Falcon-1024 and SHAKE256, and no other. -/
def execNegotiateAlgorithms (s : State) : Host.Outcome State Fault Refusal := .next (s.answerSpdm (.algorithms "Falcon-1024" "SHAKE256"))

/-- The device's certificate chain, digests and signatures are its own (DESIGN CHOICE, log entry 17). -/
def execGetDigests (s : State) : Host.Outcome State Fault Refusal :=
  .next (s.answerSpdm (.digests (firmwareText s.draws (Config.choice s.draws % 65536))))

/-- GET_CERTIFICATE: a part of the chain. -/
def execGetCertificate (off len : Nat) (s : State) : Host.Outcome State Fault Refusal :=
  .next (s.answerSpdm (.certificate ((List.range len).map fun i => Config.firmwareByte 1 (off + i))))

/-- CHALLENGE: signed over the nonce. -/
def execChallenge (nonce : List Byte) (s : State) : Host.Outcome State Fault Refusal :=
  .next (s.answerSpdm (.challengeAuth nonce (firmwareText s.draws (Config.choice s.draws % 65536))))

/-- GET_MEASUREMENTS. -/
def execGetMeasurements (s : State) : Host.Outcome State Fault Refusal := .next (s.answerSpdm (.measurements s.measurements))

end Sys2Proof.Machine
end

