-- ==== Sys2Proof/Machine/Background.lean ====
section
/-! DEFINITION. What goes on beside a waiting strand (DESIGN CHOICE, log entry 7): one unit of work of the core's drain, posts and copies, of the memory
side, of Owlwire and of the link engines. Each unit is an event of the table, with the same meaning. -/

namespace Sys2Proof.Machine

/-- A result that stands only if it merges at L2 into no line that the host of either card may hold; else BISnp goes out for those lines, nothing
else is done but what `idle` does, and the requester tries again (R434). -/
def State.guarded (s : State) (idle : State → State) (r : Host.Outcome State Fault Refusal) : Host.Outcome State Fault Refusal :=
  match r with
  | .next t => match s.heldBy t, s.swap.heldBy t.swap with
    | [], [] => .next t
    | x, y => .next (idle ((s.snoop x).swap.snoop y).swap)
  | .fault f => .fault f
  | .refused f => .refused f

/-- An event as a change of the state. -/
def State.after (s : State) (f : State → Host.Outcome State Fault Refusal) : State :=
  match f s with
  | .next t => t
  | _ => s

/-- How much work is under way: a unit that has its effect changes one of these numbers. -/
def State.workload (s : State) : List Nat :=
  [s.card.snoops.length, (s.core.drain.map fun e => 1 + e.writes.length).sum, if s.core.sent then 1 else 0,
   s.core.posts.length, s.card.flight.length, (s.card.jobs.map fun j => 1 + j.updates.length).sum,
   (s.core.copies.toList.map fun k => (k.queue.map fun t => 1 + t.rows * t.rowbytes - t.moved + if t.begun then 0 else 1).sum).sum,
   (s.card.segments.map fun g => (g.members.map fun m => m.arrivals.length).sum).sum, (s.card.colls.map fun c => match c.status with
     | .pending => 2
     | .paired _ => 1
     | _ => 0).sum,
   s.card.returns.length, s.card.messages.length, s.card.undeliverable.length, s.card.reports.length, s.card.rendezvous.length,
   s.card.sideLogs.countP SideLog.rung, s.card.bridge.domains.length]

/-- The units of work that may be done, in the order in which they are tried: BISnp responses, the core's drain, stores under way, posts,
sketch units, copies, rounds, collectives, side logs that have been rung, and what comes back. -/
def State.units (s : State) : List (State → Host.Outcome State Fault Refusal) :=
  let k := s.card
  let each {α : Type} (l : List α) (f : Nat → State → Host.Outcome State Fault Refusal) := (List.range l.length).map f
  let work (f : State → Host.Outcome State Fault Refusal) (s : State) : Host.Outcome State Fault Refusal := s.guarded id (f s)
  k.snoops.map execBisnpResponse ++ ([execStoreDrainWrite, execApertureAccessPerform, execCxlCacheResponse s.core.num] ++
    (List.range 4).map (fun p => execBridgeAcknowledgement (p, (k.bridge.oldestOn p).getD s.core.num)) ++ [execPostQueueSend] ++ each k.flight (fun n => execRedPerform (n, none)) ++
    each k.flight (fun n => execSketchOperationBegin (n, none)) ++ each k.flight execGradientEntryArrival ++
    (List.range k.jobs.length).flatMap (fun j => (List.range 16).map (execCounterApply j)) ++ each k.jobs execSketchAcknowledge ++
    (List.range 8).map execCopyTransferBegin ++ [execCopyBeat] ++ each k.segments execRoundComplete ++
    k.sideLogs.map (fun l => execSideLogDoorbell (l.ctrl, none) l.colour) ++ each k.colls execCollectivePairing ++ each k.colls execCollectiveComplete ++ each s.messagesDue execMessageArrival ++
    each k.undeliverable execUndeliverableAccept ++ each k.returns execWindowCountReturn ++ each k.reports execDeferredReportArrival).map work

/-- The first unit that has an effect. -/
def State.firstUnit (s : State) : List (State → Host.Outcome State Fault Refusal) → State
  | [] => s
  | f :: fs =>
    let t := s.after f
    if t.workload == s.workload then s.firstUnit fs else t

/-- One unit of work. -/
def State.background (s : State) : State := s.firstUnit s.units

end Sys2Proof.Machine
end

