-- ==== Sys2Proof/Machine/Control.lean ====
section
/-! DEFINITION. Control instructions, group 0x40 (R106-R112), and the front-end instructions without an effect of their own
(NOP, hints, IFENCE). -/

namespace Sys2Proof.Machine

/-- A taken branch or a fall-through. -/
def State.branchIf (s : State) (taken : Bool) (opcode : BitVec 8) (target : Word) : Except Stop State :=
  if taken then s.branchTo opcode target else .ok { s with core := s.core.advance }

/-- BR (R106). -/
def execBr (xa xb : BitVec 6) (cond : BitVec 4) (tslot : BitVec 3) (imm : BitVec 64) (s : State) : Host.Outcome State Fault Refusal :=
  s.finishAt (s.branchIf (intCondHolds cond (s.core.xr xa) (s.core.xr xb)) 0x40#8 (s.core.labelTarget tslot imm))

/-- BRI: the comparand is the sign-extended k (R106). -/
def execBri (xa k : BitVec 6) (cond : BitVec 4) (tslot : BitVec 3) (imm : BitVec 64) (s : State) : Host.Outcome State Fault Refusal :=
  s.finishAt (s.branchIf (intCondHolds cond (s.core.xr xa) (k.signExtend 64)) 0x41#8 (s.core.labelTarget tslot imm))

/-- JMP (R106). -/
def execJmp (tslot : BitVec 3) (imm : BitVec 64) (s : State) : Host.Outcome State Fault Refusal :=
  s.finishAt (s.branchTo 0x42#8 (s.core.labelTarget tslot imm))

/-- JMPR (R106). -/
def execJmpr (xa : BitVec 6) (s : State) : Host.Outcome State Fault Refusal :=
  s.finishAt (s.branchTo 0x43#8 (s.core.xr xa))

/-- A call: the link is written only when the target check passes (R107). -/
def State.call (s : State) (opcode : BitVec 8) (target : Word) : Except Stop State := do
  let t ← s.branchTo opcode target
  .ok { t with core := t.core.setX 62#6 (nextPc s.core.pc) }

/-- CALL (R107). -/
def execCall (tslot : BitVec 3) (imm : BitVec 64) (s : State) : Host.Outcome State Fault Refusal :=
  s.finishAt (s.call 0x44#8 (s.core.labelTarget tslot imm))

/-- CALLR: xa is read before x62 is written (R107). -/
def execCallr (xa : BitVec 6) (s : State) : Host.Outcome State Fault Refusal :=
  s.finishAt (s.call 0x45#8 (s.core.xr xa))

/-- LOOP (R108): the counter goes down by one, and the branch is taken while it is not zero. -/
def execLoop (xa : BitVec 6) (tslot : BitVec 3) (imm : BitVec 64) (s : State) : Host.Outcome State Fault Refusal :=
  let c := s.core.xr xa - 1#64
  s.finishAt (do
    let t ← s.branchIf (c != 0#64) 0x46#8 (s.core.labelTarget tslot imm)
    .ok { t with core := t.core.setX xa c })

/-- CMPSK and CMPSKI (R110-R112): when the condition holds, the next n instructions are annulled and retire with this one. -/
def State.skip (s : State) (holds : Bool) (n : BitVec 2) : State :=
  { s with core := s.core.leave (if holds then skipPc (n.toNat + 1) s.core.pc else nextPc s.core.pc) }

/-- CMPSK (R110). -/
def execCmpsk (xa xb : BitVec 6) (cond : BitVec 4) (skip : BitVec 2) (s : State) : Host.Outcome State Fault Refusal :=
  .next (s.skip (intCondHolds cond (s.core.xr xa) (s.core.xr xb)) skip)

/-- CMPSKI (R110). -/
def execCmpski (xa : BitVec 6) (cond : BitVec 4) (skip : BitVec 2) (imm : BitVec 64) (s : State) : Host.Outcome State Fault Refusal :=
  .next (s.skip (intCondHolds cond (s.core.xr xa) imm) skip)

/-- NOP (R67). -/
def execNop (s : State) : Host.Outcome State Fault Refusal := .next s.retire

/-- Hints behave as NOP, whatever their payload (R71). -/
def execHint (_k : BitVec 8) (_payload : BitVec 88) (s : State) : Host.Outcome State Fault Refusal := .next s.retire

/-- IFENCE (R298): once every older store-type instruction has performed, every fetched word is discarded, and what the core's own stores
wrote is fetched from then on. -/
def execIfence (s : State) : Host.Outcome State Fault Refusal :=
  s.finish (if s.allPerformed then .ok { s with core := { s.core with icache := [], lineBuffer := [], codeView := [] } } else await .plain)

end Sys2Proof.Machine
end

