-- ==== Sys2Proof/Machine/Ordering.lean ====
section
/-! DEFINITION. Ordering instructions (R294-R297): ACQ, REL, FENCE, QFENCE. -/

namespace Sys2Proof.Machine

/-- ACQ (R295): every older load has performed, since loads perform in their own step. -/
def execAcq (scope : BitVec 2) (s : State) : Host.Outcome State Fault Refusal := s.finish (.ok (s.acquireAt scope.toNat))

/-- REL (R289, R295). -/
def State.rel (s : State) (scope : Nat) : Except Stop State :=
  if !s.releaseReady scope then await (.release scope)
  else s.whenMerged (.release scope) (s.releaseAt scope)

def execRel (scope : BitVec 2) (s : State) : Host.Outcome State Fault Refusal := s.finish (s.rel scope.toNat)

/-- FENCE (R296): the drain is empty, and every older atomic, RED, post-queue entry and rendezvous update has performed. -/
def State.fence (s : State) : Except Stop State := if s.drained && s.ownUpdates.isEmpty && s.postsDone then .ok s else await .posts

def execFence (s : State) : Host.Outcome State Fault Refusal := s.finish s.fence

/-- The queues that a QFENCE mask names hold no older operation: channel c is bit c, the post queue bit 8, the link queue bit 9 (R258). -/
def State.queuesDone (s : State) (mask : BitVec 32) : Bool :=
  ((s.core.copies.toList.zipIdx).all fun p => !mask.getLsbD p.2 || p.1.queue.isEmpty) &&
    (!mask.getLsbD 8 || s.postsDone) && (!mask.getLsbD 9 || s.ownColls.isEmpty)

/-- QFENCE (R297). -/
def State.qfence (s : State) (mask : BitVec 32) : Except Stop State :=
  if s.queuesDone mask then .ok s else await (if mask.getLsbD 8 then .posts else .plain)

def execQfence (imm : BitVec 32) (s : State) : Host.Outcome State Fault Refusal := s.finish (s.qfence imm)

end Sys2Proof.Machine
end

