-- ==== Sys2Proof/Machine/ScalarFp.lean ====
section
/-! DEFINITION. Group 0x30: scalar floating point (R97-R103). -/

namespace Sys2Proof.Machine

def Core.fadd (c : Core) (xd xa xb : BitVec 6) (width : Bool) (rmode : BitVec 3) : Except Exc Core :=
  c.fpRound 0x30#8 xd width rmode (addVal (c.downward rmode) (widthVal width (c.xr xa)) (widthVal width (c.xr xb)))

def Core.fsub (c : Core) (xd xa xb : BitVec 6) (width : Bool) (rmode : BitVec 3) : Except Exc Core :=
  c.fpRound 0x31#8 xd width rmode (addVal (c.downward rmode) (widthVal width (c.xr xa)) (widthVal width (c.xr xb)).negate)

def Core.fmul (c : Core) (xd xa xb : BitVec 6) (width : Bool) (rmode : BitVec 3) : Except Exc Core :=
  c.fpRound 0x32#8 xd width rmode (mulVal (widthVal width (c.xr xa)) (widthVal width (c.xr xb)))

def Core.ffma (c : Core) (xd xa xb xc : BitVec 6) (width : Bool) (rmode : BitVec 3) : Except Exc Core :=
  c.fpRound 0x33#8 xd width rmode
    (fmaVal (c.downward rmode) (widthVal width (c.xr xa)) (widthVal width (c.xr xb)) (widthVal width (c.xr xc)))

def Core.fdiv (c : Core) (xd xa xb : BitVec 6) (width : Bool) (rmode : BitVec 3) : Except Exc Core :=
  c.fpRound 0x34#8 xd width rmode (divVal (widthVal width (c.xr xa)) (widthVal width (c.xr xb)))

def Core.fsqrt (c : Core) (xd xa : BitVec 6) (width : Bool) (rmode : BitVec 3) : Except Exc Core :=
  c.fpRound 0x35#8 xd width rmode (sqrtVal (widthVal width (c.xr xa)))

/-- FMIN and FMAX (R100). -/
def Core.fminmax (c : Core) (op : BitVec 8) (takeMin : Bool) (xd xa xb : BitVec 6) (width : Bool) : Except Exc Core :=
  let n := if width then 2 ^ 64 else 2 ^ 32
  let r := minMaxCode (widthFmt width) takeMin ((c.xr xa).toNat % n) ((c.xr xb).toNat % n)
  c.fpWrite op xd (BitVec.ofNat 64 r.1) r.2

def Core.fmin (c : Core) (xd xa xb : BitVec 6) (width : Bool) : Except Exc Core := c.fminmax 0x36#8 true xd xa xb width
def Core.fmax (c : Core) (xd xa xb : BitVec 6) (width : Bool) : Except Exc Core := c.fminmax 0x37#8 false xd xa xb width

/-- FCMP (R101). -/
def Core.fcmp (c : Core) (xd xa xb : BitVec 6) (width : Bool) (cond : BitVec 4) : Except Exc Core :=
  let r := fpCondHolds cond (widthVal width (c.xr xa)) (widthVal width (c.xr xb))
  c.fpWrite 0x38#8 xd (ofBool r.1) r.2

/-- The value of a register under an FCVT type code: .S 0, .D 1, .W 2, .L 3 (R77, R97). -/
def typeVal (t : BitVec 3) (x : Word) : Val :=
  match t.toNat with
  | 0 => widthVal false x
  | 1 => widthVal true x
  | 2 => ofInt (signed 32 x.toNat)
  | _ => ofInt x.toInt

/-- FCVT (R102, R56). -/
def Core.fcvt (c : Core) (xd xa : BitVec 6) (stype dtype rmode : BitVec 3) : Except Exc Core :=
  let v := typeVal stype (c.xr xa)
  match dtype.toNat with
  | 0 => c.fpRound 0x39#8 xd false rmode (v, 0#5)
  | 1 => c.fpRound 0x39#8 xd true rmode (v, 0#5)
  | 2 =>
    let r := toIntRange (c.scalarMode rmode) (-2 ^ 31) (2 ^ 31 - 1) v
    c.fpWrite 0x39#8 xd (BitVec.ofInt 64 r.1) r.2
  | _ =>
    let r := toIntRange (c.scalarMode rmode) (-2 ^ 63) (2 ^ 63 - 1) v
    c.fpWrite 0x39#8 xd (BitVec.ofInt 64 r.1) r.2

end Sys2Proof.Machine
end

