-- ==== Sys2Proof/Machine/ScalarInt.lean ====
section
/-! DEFINITION. Groups 0x10 and 0x20 (R93-R96). -/

namespace Sys2Proof.Machine

def Core.add (c : Core) (xd xa xb : BitVec 6) : Core := c.setX xd (c.xr xa + c.xr xb)
def Core.sub (c : Core) (xd xa xb : BitVec 6) : Core := c.setX xd (c.xr xa - c.xr xb)
def Core.mul (c : Core) (xd xa xb : BitVec 6) : Core := c.setX xd (c.xr xa * c.xr xb)
def Core.mulh (c : Core) (xd xa xb : BitVec 6) (u : Bool) : Core := c.setX xd (mulHigh u (c.xr xa) (c.xr xb))

/-- R94: a divisor of 0 is class 5 detail 0x00, which nothing masks. -/
def Core.div (c : Core) (xd xa xb : BitVec 6) (u : Bool) : Except Exc Core :=
  if c.xr xb = 0#64 then .error ⟨5, 0, 0#64, 0x14#64⟩ else .ok (c.setX xd (quotient u (c.xr xa) (c.xr xb)))
def Core.rem (c : Core) (xd xa xb : BitVec 6) (u : Bool) : Except Exc Core :=
  if c.xr xb = 0#64 then .error ⟨5, 0, 0#64, 0x15#64⟩ else .ok (c.setX xd (remainder u (c.xr xa) (c.xr xb)))

def Core.and (c : Core) (xd xa xb : BitVec 6) : Core := c.setX xd (c.xr xa &&& c.xr xb)
def Core.or (c : Core) (xd xa xb : BitVec 6) : Core := c.setX xd (c.xr xa ||| c.xr xb)
def Core.xor (c : Core) (xd xa xb : BitVec 6) : Core := c.setX xd (c.xr xa ^^^ c.xr xb)
def Core.andn (c : Core) (xd xa xb : BitVec 6) : Core := c.setX xd (c.xr xa &&& ~~~(c.xr xb))
def Core.shl (c : Core) (xd xa xb : BitVec 6) : Core := c.setX xd (c.xr xa <<< shiftCount (c.xr xb))
def Core.shr (c : Core) (xd xa xb : BitVec 6) : Core := c.setX xd (c.xr xa >>> shiftCount (c.xr xb))
def Core.sar (c : Core) (xd xa xb : BitVec 6) : Core := c.setX xd ((c.xr xa).sshiftRight (shiftCount (c.xr xb)))
def Core.minOf (c : Core) (xd xa xb : BitVec 6) (u : Bool) : Core := c.setX xd (lesser u (c.xr xa) (c.xr xb))
def Core.maxOf (c : Core) (xd xa xb : BitVec 6) (u : Bool) : Core := c.setX xd (greater u (c.xr xa) (c.xr xb))
def Core.cmp (c : Core) (xd xa xb : BitVec 6) (cond : BitVec 4) : Core :=
  c.setX xd (ofBool (intCondHolds cond (c.xr xa) (c.xr xb)))

def Core.addi (c : Core) (xd xa : BitVec 6) (imm : Word) : Core := c.setX xd (c.xr xa + imm)
def Core.muli (c : Core) (xd xa : BitVec 6) (imm : Word) : Core := c.setX xd (c.xr xa * imm)
def Core.andi (c : Core) (xd xa : BitVec 6) (imm : Word) : Core := c.setX xd (c.xr xa &&& imm)
def Core.ori (c : Core) (xd xa : BitVec 6) (imm : Word) : Core := c.setX xd (c.xr xa ||| imm)
def Core.xori (c : Core) (xd xa : BitVec 6) (imm : Word) : Core := c.setX xd (c.xr xa ^^^ imm)
def Core.shli (c : Core) (xd xa : BitVec 6) (imm : Word) : Core := c.setX xd (c.xr xa <<< shiftCount imm)
def Core.shri (c : Core) (xd xa : BitVec 6) (imm : Word) : Core := c.setX xd (c.xr xa >>> shiftCount imm)
def Core.sari (c : Core) (xd xa : BitVec 6) (imm : Word) : Core := c.setX xd ((c.xr xa).sshiftRight (shiftCount imm))
def Core.cmpi (c : Core) (xd xa : BitVec 6) (imm : Word) (cond : BitVec 4) : Core :=
  c.setX xd (ofBool (intCondHolds cond (c.xr xa) imm))
def Core.movi (c : Core) (xd : BitVec 6) (imm : Word) : Core := c.setX xd imm
def Core.clz (c : Core) (xd xa : BitVec 6) : Core := c.setX xd (leadingZeros (c.xr xa))
def Core.ctz (c : Core) (xd xa : BitVec 6) : Core := c.setX xd (trailingZeros (c.xr xa))
def Core.popc (c : Core) (xd xa : BitVec 6) : Core := c.setX xd (popCount (c.xr xa))
def Core.sext (c : Core) (xd xa : BitVec 6) (imm : Word) : Core := c.setX xd (signExtendFrom imm.toNat (c.xr xa))
def Core.zext (c : Core) (xd xa : BitVec 6) (imm : Word) : Core := c.setX xd (zeroExtendFrom imm.toNat (c.xr xa))
def Core.sel (c : Core) (xd xa xb xc : BitVec 6) : Core :=
  c.setX xd (if c.xr xc ≠ 0#64 then c.xr xa else c.xr xb)

end Sys2Proof.Machine
end

