-- ==== Sys2Proof/Machine/Scalar.lean ====
section
/-! DEFINITION. The meanings of the scalar instructions of groups 0x10 to 0x30 (R93-R103): each applies its register function to the core in focus and retires or
takes its fault. -/

namespace Sys2Proof.Machine

/-- ADD (R93). -/
def execAdd (xd xa xb : BitVec 6) (s : State) : Host.Outcome State Fault Refusal :=
  s.finishCore (.ok (s.core.add xd xa xb))

/-- SUB (R93). -/
def execSub (xd xa xb : BitVec 6) (s : State) : Host.Outcome State Fault Refusal :=
  s.finishCore (.ok (s.core.sub xd xa xb))

/-- MUL (R93). -/
def execMul (xd xa xb : BitVec 6) (s : State) : Host.Outcome State Fault Refusal :=
  s.finishCore (.ok (s.core.mul xd xa xb))

/-- MULH (R93). -/
def execMulh (xd xa xb : BitVec 6) (u : Bool) (s : State) : Host.Outcome State Fault Refusal :=
  s.finishCore (.ok (s.core.mulh xd xa xb u))

/-- DIV (R94). -/
def execDiv (xd xa xb : BitVec 6) (u : Bool) (s : State) : Host.Outcome State Fault Refusal :=
  s.finishCore (s.core.div xd xa xb u)

/-- REM (R93). -/
def execRem (xd xa xb : BitVec 6) (u : Bool) (s : State) : Host.Outcome State Fault Refusal :=
  s.finishCore (s.core.rem xd xa xb u)

/-- AND (R93). -/
def execAnd (xd xa xb : BitVec 6) (s : State) : Host.Outcome State Fault Refusal :=
  s.finishCore (.ok (s.core.and xd xa xb))

/-- OR (R93). -/
def execOr (xd xa xb : BitVec 6) (s : State) : Host.Outcome State Fault Refusal :=
  s.finishCore (.ok (s.core.or xd xa xb))

/-- XOR (R93). -/
def execXor (xd xa xb : BitVec 6) (s : State) : Host.Outcome State Fault Refusal :=
  s.finishCore (.ok (s.core.xor xd xa xb))

/-- ANDN (R93). -/
def execAndn (xd xa xb : BitVec 6) (s : State) : Host.Outcome State Fault Refusal :=
  s.finishCore (.ok (s.core.andn xd xa xb))

/-- SHL (R93). -/
def execShl (xd xa xb : BitVec 6) (s : State) : Host.Outcome State Fault Refusal :=
  s.finishCore (.ok (s.core.shl xd xa xb))

/-- SHR (R93). -/
def execShr (xd xa xb : BitVec 6) (s : State) : Host.Outcome State Fault Refusal :=
  s.finishCore (.ok (s.core.shr xd xa xb))

/-- SAR (R93). -/
def execSar (xd xa xb : BitVec 6) (s : State) : Host.Outcome State Fault Refusal :=
  s.finishCore (.ok (s.core.sar xd xa xb))

/-- MIN (R93). -/
def execMin (xd xa xb : BitVec 6) (u : Bool) (s : State) : Host.Outcome State Fault Refusal :=
  s.finishCore (.ok (s.core.minOf xd xa xb u))

/-- MAX (R93). -/
def execMax (xd xa xb : BitVec 6) (u : Bool) (s : State) : Host.Outcome State Fault Refusal :=
  s.finishCore (.ok (s.core.maxOf xd xa xb u))

/-- CMP (R93). -/
def execCmp (xd xa xb : BitVec 6) (cond : BitVec 4) (s : State) : Host.Outcome State Fault Refusal :=
  s.finishCore (.ok (s.core.cmp xd xa xb cond))

/-- ADDI (R96). -/
def execAddi (xd xa : BitVec 6) (imm : BitVec 64) (s : State) : Host.Outcome State Fault Refusal :=
  s.finishCore (.ok (s.core.addi xd xa imm))

/-- MULI (R96). -/
def execMuli (xd xa : BitVec 6) (imm : BitVec 64) (s : State) : Host.Outcome State Fault Refusal :=
  s.finishCore (.ok (s.core.muli xd xa imm))

/-- ANDI (R96). -/
def execAndi (xd xa : BitVec 6) (imm : BitVec 64) (s : State) : Host.Outcome State Fault Refusal :=
  s.finishCore (.ok (s.core.andi xd xa imm))

/-- ORI (R96). -/
def execOri (xd xa : BitVec 6) (imm : BitVec 64) (s : State) : Host.Outcome State Fault Refusal :=
  s.finishCore (.ok (s.core.ori xd xa imm))

/-- XORI (R96). -/
def execXori (xd xa : BitVec 6) (imm : BitVec 64) (s : State) : Host.Outcome State Fault Refusal :=
  s.finishCore (.ok (s.core.xori xd xa imm))

/-- SHLI (R96). -/
def execShli (xd xa : BitVec 6) (imm : BitVec 64) (s : State) : Host.Outcome State Fault Refusal :=
  s.finishCore (.ok (s.core.shli xd xa imm))

/-- SHRI (R96). -/
def execShri (xd xa : BitVec 6) (imm : BitVec 64) (s : State) : Host.Outcome State Fault Refusal :=
  s.finishCore (.ok (s.core.shri xd xa imm))

/-- SARI (R96). -/
def execSari (xd xa : BitVec 6) (imm : BitVec 64) (s : State) : Host.Outcome State Fault Refusal :=
  s.finishCore (.ok (s.core.sari xd xa imm))

/-- CMPI (R96). -/
def execCmpi (xd xa : BitVec 6) (imm : BitVec 64) (cond : BitVec 4) (s : State) : Host.Outcome State Fault Refusal :=
  s.finishCore (.ok (s.core.cmpi xd xa imm cond))

/-- MOVI (R96). -/
def execMovi (xd : BitVec 6) (imm : BitVec 64) (s : State) : Host.Outcome State Fault Refusal :=
  s.finishCore (.ok (s.core.movi xd imm))

/-- CLZ (R96). -/
def execClz (xd xa : BitVec 6) (s : State) : Host.Outcome State Fault Refusal :=
  s.finishCore (.ok (s.core.clz xd xa))

/-- CTZ (R96). -/
def execCtz (xd xa : BitVec 6) (s : State) : Host.Outcome State Fault Refusal :=
  s.finishCore (.ok (s.core.ctz xd xa))

/-- POPC (R96). -/
def execPopc (xd xa : BitVec 6) (s : State) : Host.Outcome State Fault Refusal :=
  s.finishCore (.ok (s.core.popc xd xa))

/-- SEXT (R96). -/
def execSext (xd xa : BitVec 6) (imm : BitVec 64) (s : State) : Host.Outcome State Fault Refusal :=
  s.finishCore (.ok (s.core.sext xd xa imm))

/-- ZEXT (R96). -/
def execZext (xd xa : BitVec 6) (imm : BitVec 64) (s : State) : Host.Outcome State Fault Refusal :=
  s.finishCore (.ok (s.core.zext xd xa imm))

/-- SEL (R96). -/
def execSel (xd xa xb xc : BitVec 6) (s : State) : Host.Outcome State Fault Refusal :=
  s.finishCore (.ok (s.core.sel xd xa xb xc))

/-- FADD (R99). -/
def execFadd (xd xa xb : BitVec 6) (width : Bool) (rmode : BitVec 3) (s : State) : Host.Outcome State Fault Refusal :=
  s.finishCore (s.core.fadd xd xa xb width rmode)

/-- FSUB (R99). -/
def execFsub (xd xa xb : BitVec 6) (width : Bool) (rmode : BitVec 3) (s : State) : Host.Outcome State Fault Refusal :=
  s.finishCore (s.core.fsub xd xa xb width rmode)

/-- FMUL (R99). -/
def execFmul (xd xa xb : BitVec 6) (width : Bool) (rmode : BitVec 3) (s : State) : Host.Outcome State Fault Refusal :=
  s.finishCore (s.core.fmul xd xa xb width rmode)

/-- FFMA (R99). -/
def execFfma (xd xa xb xc : BitVec 6) (width : Bool) (rmode : BitVec 3) (s : State) : Host.Outcome State Fault Refusal :=
  s.finishCore (s.core.ffma xd xa xb xc width rmode)

/-- FDIV (R99). -/
def execFdiv (xd xa xb : BitVec 6) (width : Bool) (rmode : BitVec 3) (s : State) : Host.Outcome State Fault Refusal :=
  s.finishCore (s.core.fdiv xd xa xb width rmode)

/-- FSQRT (R99). -/
def execFsqrt (xd xa : BitVec 6) (width : Bool) (rmode : BitVec 3) (s : State) : Host.Outcome State Fault Refusal :=
  s.finishCore (s.core.fsqrt xd xa width rmode)

/-- FMIN (R100). -/
def execFmin (xd xa xb : BitVec 6) (width : Bool) (s : State) : Host.Outcome State Fault Refusal :=
  s.finishCore (s.core.fmin xd xa xb width)

/-- FMAX (R100). -/
def execFmax (xd xa xb : BitVec 6) (width : Bool) (s : State) : Host.Outcome State Fault Refusal :=
  s.finishCore (s.core.fmax xd xa xb width)

/-- FCMP (R101). -/
def execFcmp (xd xa xb : BitVec 6) (width : Bool) (cond : BitVec 4) (s : State) : Host.Outcome State Fault Refusal :=
  s.finishCore (s.core.fcmp xd xa xb width cond)

/-- FCVT (R102). -/
def execFcvt (xd xa : BitVec 6) (stype dtype rmode : BitVec 3) (s : State) : Host.Outcome State Fault Refusal :=
  s.finishCore (s.core.fcvt xd xa stype dtype rmode)

end Sys2Proof.Machine
end

