-- ==== Sys2Proof/Machine/TileMem.lean ====
section
/-! DEFINITION. Tile memory instructions, opcodes 0x60-0x63 (R131-R136, R147). -/

namespace Sys2Proof.Machine

/-- A class-2 or class-6 fault of the tile memory unit (R129, R130). -/
def tileFault (op : BitVec 8) (cls detail role tile : Nat) : Exc := ⟨cls, detail, 0#64, tileInfo 0 role tile op⟩

/-- What a tile memory instruction moves: its rows' addresses and the range that it is checked and ordered by. -/
structure Rows where
  addrs : List Int
  lo : Int
  hi : Int
deriving DecidableEq, Repr

/-- The rows of TLD and TST (R132). -/
def Core.stridedRows (c : Core) (shape : BitVec 3) (xbase xstride : BitVec 6) (imm : BitVec 32) : Rows :=
  let as := strideRows (c.rowBase xbase imm) (c.xr xstride).toInt (c.hRows shape)
  ⟨as, rowsLo as, rowsHi as (c.hRowbytes shape)⟩

/-- The bound of TLD and TST: none with x0 (R135 order 5). -/
def Core.rowBound (c : Core) (xbase xbound : BitVec 6) : Option (Nat × Nat) :=
  if xbound = 0#6 then none else some ((c.xr xbase).toNat, (c.xr xbound).toNat)

/-- The index tile's record (R134): not empty, INT32, and an element for each row. -/
def Core.indexChecks (c : Core) (op : BitVec 8) (ti : BitVec 5) (rows : Nat) : Except Stop Unit := do
  let t := c.tr ti
  check (t.rows != 0) (tileFault op 2 0 4 ti.toNat)
  check (t.fmt == 10#5) (tileFault op 2 1 4 ti.toNat)
  check (decide (rows ≤ t.rows * t.count)) (tileFault op 2 7 4 ti.toNat)

/-- The index values of the rows, row-major (R134). -/
def Core.rowIndices (c : Core) (ti : BitVec 5) (rows : Nat) : List Int :=
  ((c.tr ti).elems.flatten.map fun v => intOf 10#5 v).take rows

/-- The pitch and the row count of an addressed table (R134). -/
def Core.pitch (c : Core) (xpb : BitVec 6) : Nat := ((c.xr xpb).extractLsb' 0 32).toNat
def Core.tableRows (c : Core) (xpb : BitVec 6) : Nat := ((c.xr xpb).extractLsb' 32 32).toNat

/-- The rows of TLDX and TSTX with the checks of P and of every index (R134, R135 order 2). A bad index names the index tile (R130); a bad
pitch, which no tile causes, names td or ts (role 0), and s.faddr is base modulo 2^64 (R130 and R135 state neither, DESIGN CHOICE, log entry
52). -/
def Core.indexedRows (c : Core) (op : BitVec 8) (tile : Nat) (shape : BitVec 3) (fmt : BitVec 5) (xbase xpb : BitVec 6) (ti : BitVec 5)
    (imm : BitVec 32) : Except Stop Rows := do
  let base := c.rowBase xbase imm
  let p := c.pitch xpb
  let n := c.tableRows xpb
  let ks := c.rowIndices ti (c.hRows shape)
  let fa := BitVec.ofInt 64 base
  check (decide (c.hRowbytes shape ≤ p) && p % elemBytes fmt == 0) ⟨4, 2, fa, tileInfo 0 0 tile op⟩
  match ks.zipIdx.find? fun k => !(decide (0 ≤ k.1) && decide (k.1 < (n : Int))) with
  | some k => trap ⟨4, 4, fa, tileInfo k.2 4 ti.toNat op⟩
  | none => .ok ()
  .ok ⟨ks.map fun k => base + k * p, base, base + p * n⟩

/-- The source of a tile store (R133): not empty, with the instruction's format and the shape's rows and row bytes. -/
def Core.storeSource (c : Core) (op : BitVec 8) (ts : BitVec 5) (shape : BitVec 3) (fmt : BitVec 5) : Except Stop Unit := do
  let t := c.tr ts
  check (t.rows != 0) (tileFault op 2 0 0 ts.toNat)
  check (t.fmt == fmt) (tileFault op 2 1 0 ts.toNat)
  check (t.rows == c.hRows shape) (tileFault op 2 2 0 ts.toNat)
  check (t.rowbytes == c.hRowbytes shape) (tileFault op 2 3 0 ts.toNat)

/-- The bytes of the rows become td, whose record comes from the shape register and the fields (R127, R132); of FA48 rows bits [63:48]
become 0, as every producer writes them (R35 over R132, DEDUCED, log entry 51). -/
def State.loadRows (s : State) (op : BitVec 8) (td : BitVec 5) (shape : BitVec 3) (fmt : BitVec 5) (quant : BitVec 4)
    (bound : Option (Nat × Nat)) (r : Rows) : Except Stop State := do
  let rb := s.core.hRowbytes shape
  s.rowChecks .load op td.toNat r.lo r.hi (elemBytes fmt) rb bound r.addrs
  if !s.loadClear (r.lo.toNat, r.hi.toNat) then await (s.loadWait (r.lo.toNat, r.hi.toNat))
  else
    let s := s.readThrough
    let t := r.addrs.foldl (fun s a => s.touchRange a.toNat rb) s
    .ok { t with core := t.core.setT td ⟨s.core.hRows shape, rb, fmt, quant, r.addrs.map fun a => cleanRow fmt (s.peekBytes a.toNat rb)⟩ }

/-- The rows of ts enter the store drain, which holds up to four tile entries (R147). -/
def State.storeRows (s : State) (op : BitVec 8) (ts : BitVec 5) (shape : BitVec 3) (fmt : BitVec 5) (bound : Option (Nat × Nat))
    (r : Rows) : Except Stop State := do
  let rb := s.core.hRowbytes shape
  s.rowChecks .store op ts.toNat r.lo r.hi (elemBytes fmt) rb bound r.addrs
  if !s.storeClear (r.lo.toNat, r.hi.toNat) || 4 ≤ (s.core.drain.filter DrainEntry.tile).length then await .plain
  else
    let ws := (r.addrs.zip (s.core.tr ts).data).flatMap fun p => s.pieces p.1.toNat p.2
    .ok { s with core := { s.core with drain := s.core.drain ++ [⟨true, r.lo.toNat, r.hi.toNat, none, ws⟩] } }

/-- The checks that come before the tile memory unit: declared tiles (R90), the engine (R27). -/
def State.tileUnit (s : State) (op : BitVec 8) (ts : List (BitVec 5)) : Except Stop Unit := do
  raising (s.core.needTiles op ts)
  raising (s.core.needEngine op 1)

/-- TLD (R132). -/
def State.tld (s : State) (td : BitVec 5) (shape : BitVec 3) (fmt : BitVec 5) (xbase xstride xbound : BitVec 6) (quant : BitVec 4)
    (imm : BitVec 32) : Except Stop State := do
  let op := 0x60#8
  s.tileUnit op [td]
  check (rowbytesOk fmt (s.core.hRowbytes shape)) (tileFault op 2 5 0 td.toNat)
  s.loadRows op td shape fmt quant (s.core.rowBound xbase xbound) (s.core.stridedRows shape xbase xstride imm)

def execTld (td : BitVec 5) (shape : BitVec 3) (fmt : BitVec 5) (xbase xstride xbound : BitVec 6) (quant : BitVec 4) (imm : BitVec 32)
    (s : State) : Host.Outcome State Fault Refusal :=
  s.finish (s.tld td shape fmt xbase xstride xbound quant imm)

/-- TST (R132, R133, R147). -/
def State.tst (s : State) (ts : BitVec 5) (shape : BitVec 3) (fmt : BitVec 5) (xbase xstride xbound : BitVec 6) (imm : BitVec 32) :
    Except Stop State := do
  let op := 0x61#8
  s.tileUnit op [ts]
  s.core.storeSource op ts shape fmt
  s.storeRows op ts shape fmt (s.core.rowBound xbase xbound) (s.core.stridedRows shape xbase xstride imm)

def execTst (ts : BitVec 5) (shape : BitVec 3) (fmt : BitVec 5) (xbase xstride xbound : BitVec 6) (imm : BitVec 32) (s : State) :
    Host.Outcome State Fault Refusal :=
  s.finish (s.tst ts shape fmt xbase xstride xbound imm)

/-- The index tile is named in [61:57]; bit [62] was checked by the decoder (R131). -/
def indexTile (ti : BitVec 6) : BitVec 5 := ti.setWidth 5

/-- TLDX (R134). -/
def State.tldx (s : State) (td : BitVec 5) (shape : BitVec 3) (fmt : BitVec 5) (xbase xpb ti : BitVec 6) (quant : BitVec 4)
    (imm : BitVec 32) : Except Stop State := do
  let op := 0x62#8
  s.tileUnit op [td, indexTile ti]
  s.core.indexChecks op (indexTile ti) (s.core.hRows shape)
  check (rowbytesOk fmt (s.core.hRowbytes shape)) (tileFault op 2 5 0 td.toNat)
  let r ← s.core.indexedRows op td.toNat shape fmt xbase xpb (indexTile ti) imm
  s.loadRows op td shape fmt quant none r

def execTldx (td : BitVec 5) (shape : BitVec 3) (fmt : BitVec 5) (xbase xpb ti : BitVec 6) (quant : BitVec 4) (imm : BitVec 32)
    (s : State) : Host.Outcome State Fault Refusal :=
  s.finish (s.tldx td shape fmt xbase xpb ti quant imm)

/-- TSTX (R134). -/
def State.tstx (s : State) (ts : BitVec 5) (shape : BitVec 3) (fmt : BitVec 5) (xbase xpb ti : BitVec 6) (imm : BitVec 32) :
    Except Stop State := do
  let op := 0x63#8
  s.tileUnit op [ts, indexTile ti]
  s.core.storeSource op ts shape fmt
  s.core.indexChecks op (indexTile ti) (s.core.hRows shape)
  let r ← s.core.indexedRows op ts.toNat shape fmt xbase xpb (indexTile ti) imm
  s.storeRows op ts shape fmt none r

def execTstx (ts : BitVec 5) (shape : BitVec 3) (fmt : BitVec 5) (xbase xpb ti : BitVec 6) (imm : BitVec 32) (s : State) :
    Host.Outcome State Fault Refusal :=
  s.finish (s.tstx ts shape fmt xbase xpb ti imm)

end Sys2Proof.Machine
end

