-- ==== Sys2Proof/Machine/VectorFn.lean ====
section
/-! DEFINITION. Group 0x90: conversion with its E2M1 blocks (R48, R186, R187), functions (R188, R189), VAMAX (R190), VRAND (R191) and
VIOTA (R192). -/

namespace Sys2Proof.Machine

/-- The sources of VCVT and VAMAX (R186). -/
def cvtSource (fmt : BitVec 5) : Bool := cvtFmt fmt

/-- The companion checks of R161 on an E2M1 source (R187). -/
def needCompanion (fault : Nat → Nat → Nat → BitVec 5 → Exc) (ta tb : BitVec 5) (a b : Tile) : Except Exc Unit := do
  need (b.rows != 0) (fault 2 0 2 tb)
  need (b.fmt == 14#5) (fault 2 1 2 tb)
  need (b.rows == a.rows) (fault 2 2 2 tb)
  need (a.rowbytes == 64 || a.rowbytes == 128) (fault 2 3 1 ta)
  need (b.rowbytes * 16 == a.rowbytes) (fault 2 3 2 tb)

/-- The value of an E2M1 element with its block's scale code k: NaN when k is 0xFF (R48). -/
def blockVal (k code : Nat) : Val :=
  if k = 255 then .nan false
  else match decodeFloat e2m1 (code % 16) with
    | .fin n p d => if 127 ≤ k then .fin n (p * 2 ^ (k - 127)) d else .fin n p (d * 2 ^ (127 - k))
    | v => v

/-- Element n of a row with the block scales of its companion row. -/
def blockRow (scales : List Byte) (row : List Nat) : List Val :=
  (row.zipIdx).map fun p => blockVal ((scales.getD (p.2 / 32) 0#8).toNat) p.1

/-- The values that VCVT and VAMAX read from ta (R186): integers under the scale of ta's quant register, E2M1 under its block scales. -/
def Core.sourceVals (c : Core) (a b : Tile) : List (List Val) :=
  if a.fmt = 7#5 then (a.elems.zip b.data).map fun p => blockRow p.2 p.1
  else if isB a.fmt then a.elems.map fun r => r.map fun x => mulScale (ofInt (intOf a.fmt x)) (c.qScale a.quant)
  else a.elems.map fun r => r.map (elemVal a.fmt)

/-- One E2M1 block under R48: the scale code and the nibbles with what each element raises. -/
def convertBlock (mode : Nat → Mode) (e : Nat) (xs : List Val) : Nat × List ElemOut :=
  let bad (v : Val) : Bool := match v with | .fin .. => false | _ => true
  if xs.any bad then (255, xs.map fun v => (0, if bad v then flagInvalid else 0#5))
  else
    let big := xs.foldl (fun acc v => if absLe v acc then acc else v) (.fin false 0 1)
    let se : Int := match big with
      | .fin _ p d => if p = 0 then 0 else sat (floorLog2 p d - 2) (-127) 127
      | _ => 0
    let scaleDown (v : Val) : Val := match v with
      | .fin n p d => if 0 ≤ se then .fin n p (d * 2 ^ se.toNat) else .fin n (p * 2 ^ (-se).toNat) d
      | v => v
    ((se + 127).toNat, (xs.zipIdx e).map fun p =>
      let o := roundVal e2m1 (mode p.2) false (scaleDown p.1)
      (o.code, o.flags))

/-- A row converted to E2M1: its block scales and its elements. -/
def convertRowGo (mode : Nat → Mode) : Nat → List (List Val) → List Nat × List ElemOut
  | _, [] => ([], [])
  | e, b :: bs =>
    let (k, es) := convertBlock mode e b
    let (ks, rest) := convertRowGo mode (e + 32) bs
    (k :: ks, es ++ rest)

def convertRows (mode : Nat → Mode) : Nat → List (List Val) → List (List Nat × List ElemOut)
  | _, [] => []
  | m, r :: rs => convertRowGo mode (256 * m) (chunks 32 r) :: convertRows mode (m + 1) rs

/-- One converted element of a destination other than E2M1 (R186). -/
def Core.convertElem (c : Core) (fmt : BitVec 5) (rnd : BitVec 2) (inf : Bool) (e : Nat) (y : Val) : ElemOut :=
  match floatOf fmt with
  | some f => c.roundElem f rnd inf e (y, 0#5)
  | none =>
    let (lo, hi) := intBounds fmt
    let (i, fl) := toIntRange .nearest lo hi y
    (wrap (elemBits fmt) i, fl)

def mapVals (f : Nat → Val → ElemOut) : Nat → List (List Val) → List (List ElemOut)
  | _, [] => []
  | m, r :: rs => ((r.zipIdx (256 * m)).map fun p => f p.2 p.1) :: mapVals f (m + 1) rs

/-- The scales that an instruction reading ta applies, checked under R51: ta's own register for INT8 and UINT8, before the result's (R180 step 7
gives no order, DESIGN CHOICE, log entry 64). -/
def Core.needSourceScale (c : Core) (op : BitVec 8) (ta : BitVec 5) (a : Tile) : Except Exc Unit :=
  need (!isB a.fmt || scaleOk (c.qScale a.quant)) (vfault op 5 6 1 ta)

/-- VCVT (R186, R187). .SR or .INF on an integer destination is checked after tb and before the sizes (R180 gives that fault of R178 no place,
DESIGN CHOICE, log entry 64). -/
def Core.vcvt (c : Core) (td ta tb tc : BitVec 5) (shape : BitVec 3) (fmt : BitVec 5) (quant : BitVec 4) (rnd : BitVec 2)
    (inf amax : Bool) : Except Exc Core := do
  let op := 0x90#8
  let a := c.tr ta
  let b := c.tr tb
  let toBlocks := fmt == 7#5
  let rb := c.hRowbytes shape
  c.needTiles op (if toBlocks then [td, ta, tb, tc] else [td, ta, tb])
  c.needEngine op 4
  needTile op 1 ta a cvtSource
  if a.fmt = 7#5 then
    need (b.rows != 0) (vfault op 2 0 2 tb)
    need (b.fmt == 14#5) (vfault op 2 1 2 tb)
  need (a.fmt == 7#5 || tb == 0#5) (c.illegal 1 op)
  needFloatRnd op 0 td fmt rnd inf
  need (c.hRows shape == a.rows) (vfault op 2 2 0 td)
  need (elemCount fmt rb == a.count) (vfault op 2 3 0 td)
  if a.fmt = 7#5 then needCompanion (vfault op) ta tb a b
  need (!toBlocks || rb == 64 || rb == 128) (vfault op 2 3 0 td)
  needProduced op td fmt rb
  c.needSourceScale op ta a
  need (scaleOk (c.qScale quant)) (vfault op 5 6 0 td)
  let xs := c.sourceVals a b
  let s := c.qScale quant
  let ys := xs.map fun r => r.map fun v => divScale v s
  let blocks := convertRows (c.modeFor rnd) 0 ys
  let out := if toBlocks then blocks.map Prod.snd
    else mapVals (fun e y => c.convertElem fmt rnd inf e y) 0 ys
  let c' ← c.finishTile op td a.rows rb fmt quant rnd out
  let c' := if toBlocks then c'.setT tc ⟨a.rows, rb / 16, 14#5, quant, blocks.map fun r => r.1.map (BitVec.ofNat 8)⟩ else c'
  .ok (if amax then c'.setQ quant (updateAmax (c.qr quant) (amaxOf xs.flatten)) else c')

/-- VAMAX (R190): no tile is written; only a bad scale of an INT8 or UINT8 source can fault beyond the record checks. Of a source other than
E2M1 no companion is read. -/
def Core.vamax (c : Core) (ta tb : BitVec 5) (quant : BitVec 4) : Except Exc Core := do
  let op := 0x99#8
  let a := c.tr ta
  let b := c.tr tb
  c.needTiles op [ta, tb]
  c.needEngine op 4
  needTile op 1 ta a cvtSource
  if a.fmt = 7#5 then
    need (b.rows != 0) (vfault op 2 0 2 tb)
    need (b.fmt == 14#5) (vfault op 2 1 2 tb)
  if a.fmt = 7#5 then needCompanion (vfault op) ta tb a b
  c.needSourceScale op ta a
  .ok (c.setQ quant (updateAmax (c.qr quant) (amaxOf (c.sourceVals a b).flatten)))

/-- The formats of the faithful functions (R188). -/
def isFn (fmt : BitVec 5) : Bool := fmt == 2#5 || fmt == 3#5 || fmt == 4#5

/-- A faithful function of R188. -/
def Core.faithful (c : Core) (op : BitVec 8) (td ta : BitVec 5) : Except Exc Core :=
  c.unary op td ta isFn 0#2 false fun _ x =>
    let r := faithfulFn op ((floatOf (c.tr ta).fmt).getD fp32) x
    (r.code, r.flags)

/-- VEXP2 (R188, R189). -/
def Core.vexp2 (c : Core) (td ta : BitVec 5) : Except Exc Core := c.faithful 0x91#8 td ta
/-- VLOG2 (R188, R189). -/
def Core.vlog2 (c : Core) (td ta : BitVec 5) : Except Exc Core := c.faithful 0x92#8 td ta
/-- VRSQ (R188, R189). -/
def Core.vrsq (c : Core) (td ta : BitVec 5) : Except Exc Core := c.faithful 0x94#8 td ta
/-- VTANH (R188, R189). -/
def Core.vtanh (c : Core) (td ta : BitVec 5) : Except Exc Core := c.faithful 0x96#8 td ta
/-- VSIGM (R188, R189). -/
def Core.vsigm (c : Core) (td ta : BitVec 5) : Except Exc Core := c.faithful 0x97#8 td ta
/-- VGELU (R188, R189). -/
def Core.vgelu (c : Core) (td ta : BitVec 5) : Except Exc Core := c.faithful 0x98#8 td ta

/-- VRCP (R188, R189): 1/x under R178. -/
def Core.vrcp (c : Core) (td ta : BitVec 5) (rnd : BitVec 2) (inf : Bool) : Except Exc Core :=
  c.unary 0x93#8 td ta isF rnd inf fun e x =>
    let f := (floatOf (c.tr ta).fmt).getD fp32
    c.roundElem f rnd inf e (divVal (.fin false 1 1) (decodeFloat f x))

/-- VSQRT (R188, R189): √x under R178. -/
def Core.vsqrt (c : Core) (td ta : BitVec 5) (rnd : BitVec 2) (inf : Bool) : Except Exc Core :=
  c.unary 0x95#8 td ta isF rnd inf fun e x =>
    let f := (floatOf (c.tr ta).fmt).getD fp32
    c.roundElem f rnd inf e (sqrtVal (decodeFloat f x))

/-- One element of VRAND from its draw (R191). -/
def randElem (fmt : BitVec 5) (z : BitVec 64) : Nat :=
  match fmt.toNat with
  | 2 => (roundFin fp32 .nearest false false ((z.extractLsb' 8 24).toNat) (2 ^ 24)).code
  | 3 => (roundFin fp16 .nearest false false ((z.extractLsb' 21 11).toNat) (2 ^ 11)).code
  | 4 => (roundFin bf16 .nearest false false ((z.extractLsb' 24 8).toNat) (2 ^ 8)).code
  | _ => z.toNat % 2 ^ elemBits fmt

/-- A tile of generated elements: f gives the code of element n of row m. -/
def genTile (rows cols : Nat) (f : Nat → Nat → ElemOut) : List (List ElemOut) :=
  (List.range rows).map fun m => (List.range cols).map fun n => f m n

/-- VRAND (R191): counts as one SR-using instruction (R46). -/
def Core.vrand (c : Core) (td : BitVec 5) (shape : BitVec 3) (fmt : BitVec 5) (quant : BitVec 4) : Except Exc Core := do
  let op := 0x9A#8
  let rb := c.hRowbytes shape
  c.needTiles op [td]
  c.needEngine op 4
  needProduced op td fmt rb
  let r := genTile (c.hRows shape) (elemCount fmt rb) fun m n => (randElem fmt (srDraw c.seed c.serial (256 * m + n)), 0#5)
  .ok ((c.setT td (mkTile (c.hRows shape) rb fmt quant (codesOf r))).countSr true)

/-- VIOTA (R192). -/
def Core.viota (c : Core) (td : BitVec 5) (shape : BitVec 3) (fmt : BitVec 5) (quant : BitVec 4) (xs : BitVec 6)
    (imm : BitVec 32) : Except Exc Core := do
  let op := 0x9B#8
  let rb := c.hRowbytes shape
  let cols := elemCount fmt rb
  c.needTiles op [td]
  c.needEngine op 4
  needProduced op td fmt rb
  let r := genTile (c.hRows shape) cols fun m n =>
    let v : Int := (c.xr xs).toInt + ((m * cols + n : Nat) : Int) * imm.toInt
    (if fmt = 2#5 then (roundVal fp32 .nearest false (ofInt v)).code else wrap (elemBits fmt) v, 0#5)
  .ok (c.setT td (mkTile (c.hRows shape) rb fmt quant (codesOf r)))

end Sys2Proof.Machine
end

