-- ==== Sys2Proof/Machine/Matrix.lean ====
section
/-! DEFINITION. The matrix group 0x70 (06_matrix_engines.md): pins, forward and transposed streaming, outer products, drains and loads
of accumulators, with the checks of R169 in order. -/

namespace Sys2Proof.Machine

/-- A fault of a matrix engine, engine 2 or 3 of R130 by the parity of the register (R153, R169). -/
def mfault (op : BitVec 8) (engine : Nat) (cls detail role reg : Nat) : Exc :=
  ⟨cls, detail, 0#64, engineInfo 0 (2 + engine % 2) role reg op⟩

/-- Class 6 detail 0x00 on a badger core or command processor (R170). -/
def Core.needMatrix (c : Core) (op : BitVec 8) (engine : Nat) : Except Exc Unit :=
  need (c.kind == .compute) (mfault op engine 6 0 0 0)

/-- Class 6 detail 0x02: MMA, MMAT and MOPA are frozen in supervisor mode (R170). -/
def Core.needStreaming (c : Core) (op : BitVec 8) (engine : Nat) : Except Exc Unit :=
  need (!c.supervisor) (mfault op engine 6 2 0 0)

/-- Steps 1 and 2 of R129 for a tile operand of a matrix instruction. -/
def needMTile (op : BitVec 8) (engine role : Nat) (reg : BitVec 5) (t : Tile) (accept : BitVec 5 → Bool) : Except Exc Unit := do
  need (t.rows != 0) (mfault op engine 2 0 role reg.toNat)
  need (accept t.fmt) (mfault op engine 2 1 role reg.toNat)

/-- The formats of R158's table. -/
def isMat (fmt : BitVec 5) : Bool :=
  fmt == 2#5 || fmt == 3#5 || fmt == 4#5 || fmt == 5#5 || fmt == 6#5 || fmt == 7#5 || fmt == 8#5 || fmt == 9#5

/-- The accepted pairs of R158, in either order. -/
def matPair (a b : BitVec 5) : Bool :=
  let one (x y : BitVec 5) : Bool := (x == 5#5 && (y == 5#5 || y == 6#5)) || (x == 8#5 && (y == 8#5 || y == 9#5)) ||
    (x == y && (x == 7#5 || x == 4#5 || x == 3#5 || x == 2#5))
  one a b || one b a

/-- The values of a matrix operand's rows: E2M1 with its block scales, everything else at its element value (R49, R159). -/
def matVals (t : Tile) (scales : List (List Byte)) : List (List Val) :=
  if t.fmt = 7#5 then (t.elems.zip scales).map fun p => blockRow p.2 p.1
  else t.elems.map fun r => r.map (elemVal t.fmt)

/-- The exact integer sum of integer products: an integer zero has no sign. -/
def intSum (ps : List Val) : Val := if (exactSum ps).isZero then .fin false 0 1 else exactSum ps

/-- One output term added to an accumulator element (R49, R50, R159): S·st·sw for INT8 and UINT8, S for the other 8-bit formats and
E2M1, TREE48 over the padded list otherwise. -/
def termInto (fmt : BitVec 5) (k : Nat) (st sw : Nat) (a : BitVec 48) (ps : List Val) : BitVec 48 :=
  if isB fmt then accumulate a (mulScale (mulScale (intSum ps) st) sw)
  else if fmt = 5#5 ∨ fmt = 6#5 ∨ fmt = 7#5 then accumulate a (exactSum ps)
  else accumulate a (decodeFloat fa48 (tree48 k ps))

/-- The products of two rows. -/
def products (xs ys : List Val) : List Val := (xs.zip ys).map fun p => (mulVal p.1 p.2).1

/-- An accumulator rebuilt: f gives element [i][j] from its old value, z clears the old values first. -/
def rebuild (a : Acc) (z : Bool) (f : Nat → Nat → BitVec 48 → BitVec 48) : Acc :=
  (List.range 64).map fun i => (List.range 64).map fun j => f i j (if z then 0#48 else (a.getD i []).getD j 0#48)

/-- MPIN (R161). -/
def Core.mpin (c : Core) (pin : BitVec 2) (ta tb : BitVec 5) : Except Exc Core := do
  let op := 0x70#8
  let e := pin.toNat
  let a := c.tr ta
  let b := c.tr tb
  c.needTiles op [ta, tb]
  c.needPins op [pin]
  c.needMatrix op e
  needMTile op e 1 ta a isMat
  if a.fmt = 7#5 then needMTile op e 2 tb b (· == 14#5)
  need (a.fmt == 7#5 || tb == 0#5) (c.illegal 3 op)
  if a.fmt = 7#5 then needCompanion (fun k d r t => mfault op e k d r t.toNat) ta tb a b
  .ok (c.setW pin ⟨a, if a.fmt = 7#5 then b else Tile.empty⟩)

/-- The checks that MMA and MMAT share up to the pair (R169): affinity, freezing (in this order, R169 gives none, DESIGN CHOICE, log entry
49), the streamed tile, the pin. -/
def Core.checkStream (c : Core) (op : BitVec 8) (acc : BitVec 3) (pin : BitVec 2) (ta : BitVec 5) (tb : Option (BitVec 5)) :
    Except Exc Unit := do
  let e := acc.toNat
  let a := c.tr ta
  let w := (c.wr pin).tile
  c.needTiles op ([ta] ++ tb.toList)
  c.needAccs op [acc]
  c.needPins op [pin]
  c.needMatrix op e
  need (acc.toNat % 2 == pin.toNat % 2) (mfault op e 6 1 6 pin.toNat)
  c.needStreaming op e
  needMTile op e 1 ta a isMat
  match tb with
  | some r => if a.fmt = 7#5 then needMTile op e 2 r (c.tr r) (· == 14#5)
  | none => .ok ()
  need (w.rows != 0) (mfault op e 2 0 6 pin.toNat)
  need (tb.isSome || w.fmt != 7#5) (mfault op e 2 1 6 pin.toNat)
  match tb with
  | some r => need (a.fmt == 7#5 || r == 0#5) (c.illegal 3 op)
  | none => .ok ()
  need (matPair a.fmt w.fmt) (mfault op e 2 4 6 pin.toNat)

/-- The scales of an INT8 or UINT8 pair, checked under R51 (R159): of two bad ones the one named first, ta's in MMA and MMAT (R169 gives no order,
DESIGN CHOICE, log entry 64). -/
def Core.needPairScales (c : Core) (op : BitVec 8) (e : Nat) (fmt : BitVec 5) (q1 q2 : BitVec 4) (r1 n1 r2 n2 : Nat) :
    Except Exc Unit := do
  need (!isB fmt || scaleOk (c.qScale q1)) (mfault op e 5 6 r1 n1)
  need (!isB fmt || scaleOk (c.qScale q2)) (mfault op e 5 6 r2 n2)

/-- MMA (R162). -/
def Core.mma (c : Core) (acc : BitVec 3) (pin : BitVec 2) (ta tb : BitVec 5) (z : Bool) : Except Exc Core := do
  let op := 0x71#8
  let e := acc.toNat
  let a := c.tr ta
  let p := c.wr pin
  c.checkStream op acc pin ta (some tb)
  need (a.count == p.tile.count) (mfault op e 2 3 1 ta.toNat)
  if a.fmt = 7#5 then needCompanion (fun k d r t => mfault op e k d r t.toNat) ta tb a (c.tr tb)
  c.needPairScales op e a.fmt a.quant p.tile.quant 1 ta.toNat 6 pin.toNat
  let xs := matVals a (c.tr tb).data
  let ws := matVals p.tile p.scales.data
  let k := if a.fmt = 2#5 then 5 else 6
  .ok (c.setA acc (rebuild (c.ar acc) z fun m n old =>
    if m < a.rows ∧ n < p.tile.rows then
      termInto a.fmt k (c.qScale a.quant) (c.qScale p.tile.quant) old (products (xs.getD m []) (ws.getD n []))
    else old))

/-- MMAT (R163): the reduction runs along each weight column. -/
def Core.mmat (c : Core) (acc : BitVec 3) (pin : BitVec 2) (ta : BitVec 5) (z half : Bool) : Except Exc Core := do
  let op := 0x72#8
  let e := acc.toNat
  let a := c.tr ta
  let p := (c.wr pin).tile
  let h := if half then 64 else 0
  c.checkStream op acc pin ta none
  need (a.count == p.rows) (mfault op e 2 3 1 ta.toNat)
  need (decide (h < p.count)) (mfault op e 2 3 6 pin.toNat)
  c.needPairScales op e a.fmt a.quant p.quant 1 ta.toNat 6 pin.toNat
  let xs := matVals a []
  let ws := matVals p []
  .ok (c.setA acc (rebuild (c.ar acc) z fun m j old =>
    if m < a.rows ∧ j < min 64 (p.count - h) then
      termInto a.fmt 6 (c.qScale a.quant) (c.qScale p.quant) old
        (products (xs.getD m []) (ws.map fun r => r.getD (h + j) (.fin false 0 1)))
    else old))

/-- MOPA (R164): outer products of matching rows. -/
def Core.mopa (c : Core) (acc : BitVec 3) (ta tb : BitVec 5) (z half : Bool) : Except Exc Core := do
  let op := 0x73#8
  let e := acc.toNat
  let a := c.tr ta
  let b := c.tr tb
  let h := if half then 64 else 0
  c.needTiles op [ta, tb]
  c.needAccs op [acc]
  c.needMatrix op e
  c.needStreaming op e
  needMTile op e 1 ta a fun f => isMat f && f != 7#5
  needMTile op e 2 tb b fun f => isMat f && f != 7#5
  need (matPair a.fmt b.fmt) (mfault op e 2 4 2 tb.toNat)
  need (b.rows == a.rows) (mfault op e 2 2 2 tb.toNat)
  need (decide (a.count ≤ 64)) (mfault op e 2 3 1 ta.toNat)
  need (decide (h < b.count)) (mfault op e 2 3 2 tb.toNat)
  c.needPairScales op e a.fmt a.quant b.quant 1 ta.toNat 2 tb.toNat
  let xs := matVals a []
  let ys := matVals b []
  .ok (c.setA acc (rebuild (c.ar acc) z fun i j old =>
    if i < a.count ∧ j < min 64 (b.count - h) then
      termInto a.fmt 6 (c.qScale a.quant) (c.qScale b.quant) old
        (products (xs.map fun r => r.getD i (.fin false 0 1)) (ys.map fun r => r.getD (h + j) (.fin false 0 1)))
    else old))

/-- The origin of a block (R157). -/
def col0 (imm : BitVec 32) : Nat := (imm.extractLsb' 0 6).toNat
def row0 (imm : BitVec 32) : Nat := (imm.extractLsb' 8 6).toNat

/-- MDRAIN (R165). -/
def Core.mdrain (c : Core) (td : BitVec 5) (acc : BitVec 3) (shape : BitVec 3) (fmt : BitVec 5) (quant : BitVec 4)
    (imm : BitVec 32) (rnd : BitVec 2) (inf amax : Bool) : Except Exc Core := do
  let op := 0x74#8
  let e := acc.toNat
  let rows := c.hRows shape
  let rb := c.hRowbytes shape
  let cols := elemCount fmt rb
  c.needTiles op [td]
  c.needAccs op [acc]
  c.needMatrix op e
  need (rowbytesOk fmt rb) (mfault op e 2 5 0 td.toNat)
  need (decide (row0 imm + rows ≤ 64)) (mfault op e 2 2 0 td.toNat)
  need (decide (col0 imm + cols ≤ 64)) (mfault op e 2 3 0 td.toNat)
  let block : List (List Nat) := (List.range rows).map fun i => (List.range cols).map fun j =>
    (((c.ar acc).getD (row0 imm + i) []).getD (col0 imm + j) 0#48).toNat
  if fmt = 13#5 then .ok (c.setT td (mkTile rows rb fmt quant block))
  else
    need (scaleOk (c.qScale quant)) (mfault op e 5 6 0 td.toNat)
    let xs := block.map fun r => r.map (decodeFloat fa48)
    let out := mapVals (fun e x => c.convertElem fmt rnd inf e (divScale x (c.qScale quant))) 0 xs
    let c' ← c.settle op (2 + e % 2) td (eventsOf out)
    let c' := (c'.setT td (mkTile rows rb fmt quant (codesOf out))).countSr (rnd == 1#2)
    .ok (if amax then c'.setQ quant (updateAmax (c.qr quant) (amaxOf xs.flatten)) else c')

/-- MACCLD (R166): an FA48 element bit for bit, every other widened exactly, NaN canonical. -/
def Core.maccld (c : Core) (acc : BitVec 3) (ta : BitVec 5) (imm : BitVec 32) (z : Bool) : Except Exc Core := do
  let op := 0x75#8
  let e := acc.toNat
  let a := c.tr ta
  c.needTiles op [ta]
  c.needAccs op [acc]
  c.needMatrix op e
  needMTile op e 1 ta a fun f => f == 13#5 || f == 2#5 || f == 3#5 || f == 4#5 || f == 5#5 || f == 6#5
  need (decide (row0 imm + a.rows ≤ 64)) (mfault op e 2 2 1 ta.toNat)
  need (decide (col0 imm + a.count ≤ 64)) (mfault op e 2 3 1 ta.toNat)
  let es := a.elems
  .ok (c.setA acc (rebuild (c.ar acc) z fun i j old =>
    if row0 imm ≤ i ∧ i < row0 imm + a.rows ∧ col0 imm ≤ j ∧ j < col0 imm + a.count then
      let x := (es.getD (i - row0 imm) []).getD (j - col0 imm) 0
      if a.fmt = 13#5 then BitVec.ofNat 48 x
      else BitVec.ofNat 48 (roundVal fa48 .nearest false (elemVal a.fmt x)).code
    else old))

/-- WDRAIN (R167): .SC takes the companion scales of an E2M1 pin; an empty tile where there is nothing. -/
def Core.wdrain (c : Core) (td : BitVec 5) (pin : BitVec 2) (sel : BitVec 4) : Except Exc Core := do
  let op := 0x76#8
  let p := c.wr pin
  c.needTiles op [td]
  c.needPins op [pin]
  c.needMatrix op pin.toNat
  if sel = 0#4 then .ok (c.setT td (if p.tile.rows = 0 then Tile.empty else p.tile))
  else if p.tile.rows ≠ 0 ∧ p.tile.fmt = 7#5 then
    .ok (c.setT td p.scales)
  else .ok (c.setT td Tile.empty)

/-- MZERO (R168). -/
def Core.mzero (c : Core) (acc : BitVec 3) : Except Exc Core := do
  let op := 0x77#8
  c.needAccs op [acc]
  c.needMatrix op acc.toNat
  .ok (c.setA acc Acc.zero)

end Sys2Proof.Machine
end

