-- ==== Sys2Proof/Machine/VectorReduce.lean ====
section
/-! DEFINITION. Group 0xA0: reductions (R194, R195), rearrangements (R196-R198), VSCAN (R199) and VRDOT (R200). -/

namespace Sys2Proof.Machine

/-- TREE48 of terms padded to 2^k with the invalid exceptions of the sum: a signalling NaN (R37), and ∞ − ∞ in any addition of the tree
(R54). -/
def treeSum (k : Nat) (terms : List Val) : Val × FpFlags := (decodeFloat fa48 (tree48 k terms), snanFlag terms ||| tree48Flags k terms)

/-- log2 of the padded term count of a row: 32 for FP32, 64 for FP16 and BF16 (R195). -/
def rowPad (fmt : BitVec 5) : Nat := if fmt = 2#5 then 5 else 6

/-- The sum of a list of elements written as fmt (R195). -/
def Core.sumElem (c : Core) (src fmt : BitVec 5) (k : Nat) (rnd : BitVec 2) (inf : Bool) (e : Nat) (xs : List Nat) : ElemOut :=
  match floatOf src with
  | some f => c.roundElem ((floatOf fmt).getD fp32) rnd inf e (treeSum k (xs.map (decodeFloat f)))
  | none =>
    let (lo, hi) := intBounds fmt
    (wrap (elemBits fmt) (sat ((xs.map (intOf src)).foldl (· + ·) 0) lo hi), 0#5)

/-- VMAX or VMIN across a list of elements (R195). -/
def extremeElem (fmt : BitVec 5) (takeMin : Bool) (xs : List Nat) : ElemOut :=
  match xs with
  | [] => (0, 0#5)
  | x :: rest =>
    rest.foldl (fun acc y => let r := minMaxElem fmt takeMin acc.1 y; (r.1, acc.2 ||| r.2))
      (minMaxElem fmt takeMin x x)

/-- The columns of a list of rows. -/
def columns (n : Nat) (rows : List (List Nat)) : List (List Nat) :=
  (List.range n).map fun j => rows.map fun r => r.getD j 0

/-- A row result in element 0, the rest of the row zero (R194). -/
def firstOfRow (cols : Nat) (r : ElemOut) : List ElemOut := r :: List.replicate (cols - 1) (0, 0#5)

/-- The sources of VRSUM and VCSUM (R194). -/
def isSum (fmt : BitVec 5) : Bool := fmt == 2#5 || fmt == 3#5 || fmt == 4#5 || isI fmt

/-- The record checks that reductions share (R194): the source, the pair of fmt with it, the sizes. .SR or .INF on an integer destination is
checked before the pair (R180 gives that fault of R178 no place, DESIGN CHOICE, log entry 64). -/
def Core.checkReduce (c : Core) (op : BitVec 8) (td ta : BitVec 5) (shape : BitVec 3) (fmt : BitVec 5) (accept : BitVec 5 → Bool)
    (pair : Bool) (rows : Nat) (cols : Option Nat) (rnd : BitVec 2) (inf : Bool) : Except Exc Unit := do
  c.needTiles op [td, ta]
  c.needEngine op 4
  needTile op 1 ta (c.tr ta) accept
  needFloatRnd op 0 td fmt rnd inf
  need pair (vfault op 2 4 0 td)
  need (c.hRows shape == rows) (vfault op 2 2 0 td)
  match cols with
  | some n => need (elemCount fmt (c.hRowbytes shape) == n) (vfault op 2 3 0 td)
  | none => .ok ()
  needProduced op td fmt (c.hRowbytes shape)

/-- Both formats are floating-point, or both are integers. -/
def samePart (a fmt : BitVec 5) : Bool := (floatOf a).isSome == (floatOf fmt).isSome

/-- VRSUM (R194, R195). -/
def Core.vrsum (c : Core) (td ta : BitVec 5) (shape : BitVec 3) (fmt : BitVec 5) (rnd : BitVec 2) (inf : Bool) :
    Except Exc Core := do
  let op := 0xA0#8
  let a := c.tr ta
  let rb := c.hRowbytes shape
  c.checkReduce op td ta shape fmt isSum (samePart a.fmt fmt) a.rows none rnd inf
  c.finishTile op td a.rows rb fmt 0#4 rnd
    ((a.elems.zipIdx).map fun p => firstOfRow (elemCount fmt rb) (c.sumElem a.fmt fmt (rowPad a.fmt) rnd inf (256 * p.2) p.1))

/-- VRMAX and VRMIN (R194, R195). -/
def Core.rowExtreme (c : Core) (op : BitVec 8) (takeMin : Bool) (td ta : BitVec 5) (shape : BitVec 3) (fmt : BitVec 5) :
    Except Exc Core := do
  let a := c.tr ta
  let rb := c.hRowbytes shape
  c.checkReduce op td ta shape fmt isFI (fmt == a.fmt) a.rows none 0#2 false
  c.finishTile op td a.rows rb fmt 0#4 0#2 (a.elems.map fun r => firstOfRow (elemCount fmt rb) (extremeElem a.fmt takeMin r))

def Core.vrmax (c : Core) (td ta : BitVec 5) (shape : BitVec 3) (fmt : BitVec 5) : Except Exc Core :=
  c.rowExtreme 0xA1#8 false td ta shape fmt
def Core.vrmin (c : Core) (td ta : BitVec 5) (shape : BitVec 3) (fmt : BitVec 5) : Except Exc Core :=
  c.rowExtreme 0xA2#8 true td ta shape fmt

/-- VCSUM (R194, R195). -/
def Core.vcsum (c : Core) (td ta : BitVec 5) (shape : BitVec 3) (fmt : BitVec 5) (rnd : BitVec 2) (inf : Bool) :
    Except Exc Core := do
  let op := 0xA3#8
  let a := c.tr ta
  c.checkReduce op td ta shape fmt isSum (samePart a.fmt fmt) 1 (some a.count) rnd inf
  c.finishTile op td 1 (c.hRowbytes shape) fmt 0#4 rnd
    [((columns a.count a.elems).zipIdx).map fun p => c.sumElem a.fmt fmt 6 rnd inf p.2 p.1]

/-- VCMAX and VCMIN (R194, R195). -/
def Core.colExtreme (c : Core) (op : BitVec 8) (takeMin : Bool) (td ta : BitVec 5) (shape : BitVec 3) (fmt : BitVec 5) :
    Except Exc Core := do
  let a := c.tr ta
  c.checkReduce op td ta shape fmt isFI (fmt == a.fmt) 1 (some a.count) 0#2 false
  c.finishTile op td 1 (c.hRowbytes shape) fmt 0#4 0#2 [(columns a.count a.elems).map fun l => extremeElem a.fmt takeMin l]

def Core.vcmax (c : Core) (td ta : BitVec 5) (shape : BitVec 3) (fmt : BitVec 5) : Except Exc Core :=
  c.colExtreme 0xA4#8 false td ta shape fmt
def Core.vcmin (c : Core) (td ta : BitVec 5) (shape : BitVec 3) (fmt : BitVec 5) : Except Exc Core :=
  c.colExtreme 0xA5#8 true td ta shape fmt

/-- VTRANS (R196): elements are copied, the SQ32 code 0x80000000 too (DESIGN CHOICE, log entry 50). -/
def Core.vtrans (c : Core) (td ta : BitVec 5) : Except Exc Core := do
  let op := 0xA6#8
  let a := c.tr ta
  c.needTiles op [td, ta]
  c.needEngine op 4
  needTile op 1 ta a fun f => tagOk f && f != 7#5
  let rb := a.rows * elemBytes a.fmt
  need (decide (a.count ≤ 64)) (vfault op 2 3 1 ta)
  need (decide (4 ≤ rb) && decide (rb ≤ 128) && rb % 4 == 0) (vfault op 2 2 1 ta)
  .ok (c.setT td (mkTile a.count rb a.fmt a.quant (columns a.count a.elems)))

/-- The element of a tile at an element index, or none where the index lies outside it (R139). -/
def Tile.at? (t : Tile) (e : Nat) : Option Nat :=
  if e / 256 < t.rows ∧ e % 256 < t.count then some ((t.elems.getD (e / 256) []).getD (e % 256) 0) else none

/-- VBCAST (R197): .E an element everywhere, .R a row everywhere, the SQ32 code 0x80000000 too (DESIGN CHOICE, log entry 50). -/
def Core.vbcast (c : Core) (td ta : BitVec 5) (shape : BitVec 3) (imm : BitVec 32) (sel : BitVec 4) : Except Exc Core := do
  let op := 0xA7#8
  let a := c.tr ta
  let rb := c.hRowbytes shape
  let rows := c.hRows shape
  let index (e : Nat) : Exc := ⟨4, 5, BitVec.ofNat 64 e, engineInfo (e / 256 % 64) 4 1 ta.toNat op⟩
  c.needTiles op [td, ta]
  c.needEngine op 4
  needTile op 1 ta a tagOk
  if sel = 0#4 then
    needProduced op td a.fmt rb
    need ((a.at? imm.toNat).isSome) (index imm.toNat)
    let v := (a.at? imm.toNat).getD 0
    .ok (c.setT td (mkTile rows rb a.fmt a.quant (List.replicate rows (List.replicate (elemCount a.fmt rb) v))))
  else
    need (rb == a.rowbytes) (vfault op 2 3 0 td)
    need (decide (imm.toNat < a.rows)) (index (256 * imm.toNat))
    .ok (c.setT td ⟨rows, rb, a.fmt, a.quant, List.replicate rows (a.data.getD imm.toNat [])⟩)

/-- The first index of VSHUF out of range, as an element index (R198). -/
def badIndex (fmt : BitVec 5) (count : Nat) (b : List (List Nat)) : Option Nat :=
  ((b.zipIdx).flatMap fun r => ((r.1.zipIdx).filter fun p => decide (intOf fmt p.1 < 0 ∨ (count : Int) ≤ intOf fmt p.1)).map
    fun p => 256 * r.2 + p.2).head?

/-- VSHUF (R198): elements are copied, the SQ32 code 0x80000000 too (DESIGN CHOICE, log entry 50). -/
def Core.vshuf (c : Core) (td ta tb : BitVec 5) (form : BitVec 3) : Except Exc Core := do
  let op := 0xA8#8
  let a := c.tr ta
  let b := c.tr tb
  c.needTiles op [td, ta, tb]
  c.needEngine op 4
  needTile op 1 ta a tagOk
  needTile op 2 tb b fun f => isI f || isB f
  need (formOf form != .tile || b.rows == a.rows) (vfault op 2 2 2 tb)
  need (b.count == a.count) (vfault op 2 3 2 tb)
  let ks := if formOf form = .row then List.replicate a.rows (b.elems.headD []) else b.elems
  match badIndex b.fmt a.count ks with
  | some e => .error ⟨4, 5, BitVec.ofNat 64 e, engineInfo (e / 256 % 64) 4 2 tb.toNat op⟩
  | none =>
    .ok (c.setT td (a.withElems ((a.elems.zip ks).map fun p => p.2.map fun k => p.1.getD (intOf b.fmt k).toNat 0)))

/-- One row of VSCAN.ADD on floating-point elements: the running FA48 sum, each prefix rounded (R199). -/
def Core.scanAdd (c : Core) (f : FloatFmt) (rnd : BitVec 2) (inf : Bool) : Nat → Nat → List Nat → List ElemOut
  | _, _, [] => []
  | e, s, x :: xs =>
    let v := decodeFloat f x
    let sum := addVal false (decodeFloat fa48 s) v
    let s' := (roundVal fa48 .nearest false sum.1).code
    c.roundElem f rnd inf e (decodeFloat fa48 s', sum.2) :: c.scanAdd f rnd inf (e + 1) s' xs

/-- One row of a running operation on element codes (R199). -/
def scanWith (f : Nat → Nat → ElemOut) : Nat → List Nat → List ElemOut
  | _, [] => []
  | s, x :: xs => f s x :: scanWith f (f s x).1 xs

/-- VSCAN (R199): .ADD 0, .MAX 1, .MIN 2. -/
def Core.vscan (c : Core) (td ta : BitVec 5) (sel : BitVec 4) (rnd : BitVec 2) (inf : Bool) : Except Exc Core := do
  let op := 0xA9#8
  let a := c.tr ta
  c.needTiles op [td, ta]
  c.needEngine op 4
  needTile op 1 ta a isSum
  needFloatRnd op 1 ta a.fmt rnd inf
  let row (p : List Nat × Nat) : List ElemOut :=
    if sel = 0#4 then
      match floatOf a.fmt with
      | some f => c.scanAdd f rnd inf (256 * p.2) 0 p.1
      | none => scanWith (fun s x => ((s + x) % 2 ^ elemBits a.fmt, 0#5)) 0 p.1
    else match p.1 with
      | [] => []
      | x :: xs => minMaxElem a.fmt (sel == 2#4) x x ::
          scanWith (minMaxElem a.fmt (sel == 2#4)) (minMaxElem a.fmt (sel == 2#4) x x).1 xs
  c.finishTile op td a.rows a.rowbytes a.fmt a.quant rnd ((a.elems.zipIdx).map row)

/-- The sources of VRDOT (R200). -/
def isDot (fmt : BitVec 5) : Bool := dotFmt fmt

/-- One row of VRDOT: TREE48 of the exact products, with the exceptions of the products and of the sum (R200, R54). -/
def Core.dotElem (c : Core) (src : FloatFmt) (k : Nat) (fmt : BitVec 5) (rnd : BitVec 2) (inf : Bool) (e : Nat) (xs ys : List Nat) : ElemOut :=
  let ps := (xs.zip ys).map fun p => mulVal (decodeFloat src p.1) (decodeFloat src p.2)
  let s := treeSum k (ps.map Prod.fst)
  c.roundElem ((floatOf fmt).getD fp32) rnd inf e (s.1, ps.foldl (fun f p => f ||| p.2) s.2)

/-- VRDOT (R200). -/
def Core.vrdot (c : Core) (td ta tb : BitVec 5) (shape : BitVec 3) (fmt : BitVec 5) (rnd : BitVec 2) (inf : Bool)
    (form : BitVec 3) : Except Exc Core := do
  let op := 0xAA#8
  let a := c.tr ta
  let b := c.tr tb
  let rb := c.hRowbytes shape
  c.needTiles op [td, ta, tb]
  c.needEngine op 4
  needTile op 1 ta a isDot
  needTile op 2 tb b isDot
  need (b.fmt == a.fmt) (vfault op 2 4 2 tb)
  needForm op 2 tb (formOf form) a b
  need (c.hRows shape == a.rows) (vfault op 2 2 0 td)
  needProduced op td fmt rb
  let f := (floatOf a.fmt).getD fp32
  c.finishTile op td a.rows rb fmt 0#4 rnd
    (((a.elems.zip (operandB (formOf form) a b 0#64)).zipIdx).map fun p =>
      firstOfRow (elemCount fmt rb) (c.dotElem f (rowPad a.fmt) fmt rnd inf (256 * p.2) p.1.1 p.1.2))

end Sys2Proof.Machine
end

