-- ==== Sys2Proof/Machine/TileMove.lean ====
section
/-! DEFINITION. Tile moves (R137-R142): they run on the vector engine, except TSHR, which the front end executes. -/

namespace Sys2Proof.Machine

/-- TZERO (R137). -/
def Core.tzero (c : Core) (td : BitVec 5) (shape : BitVec 3) (fmt : BitVec 5) (quant : BitVec 4) : Except Exc Core := do
  let op := 0x64#8
  let rb := c.hRowbytes shape
  c.needTiles op [td]
  c.needEngine op 4
  needProduced op td fmt rb
  .ok (c.setT td ⟨c.hRows shape, rb, fmt, quant, List.replicate (c.hRows shape) (List.replicate rb 0#8)⟩)

/-- TFILL (R137, R138). -/
def Core.tfill (c : Core) (td : BitVec 5) (shape : BitVec 3) (fmt : BitVec 5) (quant : BitVec 4) (xs : BitVec 6) :
    Except Exc Core := do
  let op := 0x65#8
  let rb := c.hRowbytes shape
  c.needTiles op [td]
  c.needEngine op 4
  needProduced op td fmt rb
  .ok (c.setT td (mkTile (c.hRows shape) rb fmt quant
    (List.replicate (c.hRows shape) (List.replicate (elemCount fmt rb) (putElem fmt (c.xr xs))))))

/-- TMOV (R137). -/
def Core.tmov (c : Core) (td ta : BitVec 5) : Except Exc Core := do
  let op := 0x66#8
  c.needTiles op [td, ta]
  c.needEngine op 4
  needTile op 1 ta (c.tr ta) tagOk
  .ok (c.setT td (c.tr ta))

/-- The class-4 detail-0x05 fault of an element index outside the tile (R139). -/
def indexFault (op : BitVec 8) (ta : BitVec 5) (e : Nat) : Exc := ⟨4, 5, BitVec.ofNat 64 e, engineInfo (e / 256 % 64) 4 1 ta.toNat op⟩

/-- TMOVX (R137-R139). -/
def Core.tmovx (c : Core) (ta : BitVec 5) (xs : BitVec 6) (imm : BitVec 32) : Except Exc Core := do
  let op := 0x67#8
  let a := c.tr ta
  c.needTiles op [ta]
  c.needEngine op 4
  needTile op 1 ta a tagOk
  need ((a.at? imm.toNat).isSome) (indexFault op ta imm.toNat)
  .ok (c.setX xs (getElem a.fmt ((a.at? imm.toNat).getD 0)))

/-- A tile with one element replaced. -/
def Tile.setElem (t : Tile) (e v : Nat) : Tile :=
  let row := t.data.getD (e / 256) []
  { t with data := t.data.set (e / 256) (setRowElem t.fmt row (e % 256) v) }

/-- TMOVS (R137-R139, R142). -/
def Core.tmovs (c : Core) (td ta : BitVec 5) (xs : BitVec 6) (imm : BitVec 32) : Except Exc Core := do
  let op := 0x68#8
  let a := c.tr ta
  c.needTiles op [td, ta]
  c.needEngine op 4
  needTile op 1 ta a tagOk
  need ((a.at? imm.toNat).isSome) (indexFault op ta imm.toNat)
  .ok (c.setT td (a.setElem imm.toNat (putElem a.fmt (c.xr xs))))

/-- TSHR (R141): only decode faults, and class 6 on a command processor (R27). -/
def Core.tshr (c : Core) (ta : BitVec 5) (xs : BitVec 6) : Except Exc Core := do
  let op := 0x69#8
  c.needTiles op [ta]
  c.needEngine op 0
  .ok (c.setX xs (c.tr ta).record)

/-- TRESHAPE (R140): the bytes of ta as one stream under a new record; as FA48 with 0 in bits [63:48] (R35). As SQ32 the code 0x8000_0000
stays as it stands (R40 names no exception, DESIGN CHOICE, log entry 50). -/
def Core.treshape (c : Core) (td ta : BitVec 5) (shape : BitVec 3) (fmt : BitVec 5) (quant : BitVec 4) : Except Exc Core := do
  let op := 0x6A#8
  let a := c.tr ta
  let rb := c.hRowbytes shape
  c.needTiles op [td, ta]
  c.needEngine op 4
  needTile op 1 ta a tagOk
  need (c.hRows shape * rb == a.rows * a.rowbytes) (vfault op 2 6 0 td)
  needProduced op td fmt rb
  .ok (c.setT td ⟨c.hRows shape, rb, fmt, quant, (chunks rb a.data.flatten).map (cleanRow fmt)⟩)

end Sys2Proof.Machine
end

