-- ==== Sys2Proof/Machine/Tiles.lean ====
section
/-! DEFINITION. The meanings of tile moves (R137-R142) and the matrix group (R154-R173): each applies its register function to the core in focus and retires or
takes its fault. -/

namespace Sys2Proof.Machine

/-- TZERO (R137). -/
def execTzero (td : BitVec 5) (shape : BitVec 3) (fmt : BitVec 5) (quant : BitVec 4) (s : State) : Host.Outcome State Fault Refusal :=
  s.finishCore (s.core.tzero td shape fmt quant)

/-- TFILL (R137). -/
def execTfill (td : BitVec 5) (shape : BitVec 3) (fmt : BitVec 5) (quant : BitVec 4) (xs : BitVec 6) (s : State) :
    Host.Outcome State Fault Refusal :=
  s.finishCore (s.core.tfill td shape fmt quant xs)

/-- TMOV (R137). -/
def execTmov (td ta : BitVec 5) (s : State) : Host.Outcome State Fault Refusal :=
  s.finishCore (s.core.tmov td ta)

/-- TMOVX (R138). -/
def execTmovx (ta : BitVec 5) (xs : BitVec 6) (imm : BitVec 32) (s : State) : Host.Outcome State Fault Refusal :=
  s.finishCore (s.core.tmovx ta xs imm)

/-- TMOVS (R142). -/
def execTmovs (td ta : BitVec 5) (xs : BitVec 6) (imm : BitVec 32) (s : State) : Host.Outcome State Fault Refusal :=
  s.finishCore (s.core.tmovs td ta xs imm)

/-- TSHR (R141). -/
def execTshr (ta : BitVec 5) (xs : BitVec 6) (s : State) : Host.Outcome State Fault Refusal :=
  s.finishCore (s.core.tshr ta xs)

/-- TRESHAPE (R140). -/
def execTreshape (td ta : BitVec 5) (shape : BitVec 3) (fmt : BitVec 5) (quant : BitVec 4) (s : State) :
    Host.Outcome State Fault Refusal :=
  s.finishCore (s.core.treshape td ta shape fmt quant)

/-- MPIN (R161). -/
def execMpin (pin : BitVec 2) (ta tb : BitVec 5) (s : State) : Host.Outcome State Fault Refusal :=
  s.finishCore (s.core.mpin pin ta tb)

/-- MMA (R162). -/
def execMma (acc : BitVec 3) (pin : BitVec 2) (ta tb : BitVec 5) (z : Bool) (s : State) : Host.Outcome State Fault Refusal :=
  s.finishCore (s.core.mma acc pin ta tb z)

/-- MMAT (R163). -/
def execMmat (acc : BitVec 3) (pin : BitVec 2) (ta : BitVec 5) (z half : Bool) (s : State) : Host.Outcome State Fault Refusal :=
  s.finishCore (s.core.mmat acc pin ta z half)

/-- MOPA (R164). -/
def execMopa (acc : BitVec 3) (ta tb : BitVec 5) (z half : Bool) (s : State) : Host.Outcome State Fault Refusal :=
  s.finishCore (s.core.mopa acc ta tb z half)

/-- MDRAIN (R165). -/
def execMdrain (td : BitVec 5) (acc shape : BitVec 3) (fmt : BitVec 5) (quant : BitVec 4) (imm : BitVec 32) (rnd : BitVec 2) (inf amax : Bool) (s : State) :
    Host.Outcome State Fault Refusal :=
  s.finishCore (s.core.mdrain td acc shape fmt quant imm rnd inf amax)

/-- MACCLD (R166). -/
def execMaccld (acc : BitVec 3) (ta : BitVec 5) (imm : BitVec 32) (z : Bool) (s : State) : Host.Outcome State Fault Refusal :=
  s.finishCore (s.core.maccld acc ta imm z)

/-- WDRAIN (R167). -/
def execWdrain (td : BitVec 5) (pin : BitVec 2) (sel : BitVec 4) (s : State) : Host.Outcome State Fault Refusal :=
  s.finishCore (s.core.wdrain td pin sel)

/-- MZERO (R168). -/
def execMzero (acc : BitVec 3) (s : State) : Host.Outcome State Fault Refusal :=
  s.finishCore (s.core.mzero acc)

end Sys2Proof.Machine
end

