-- ==== Sys2Proof/Machine/VectorArith.lean ====
section
/-! DEFINITION. Group 0x80: elementwise arithmetic, comparison and selection (R182-R185), and VCLAMP (R193). -/

namespace Sys2Proof.Machine

/-- VADD (R182). -/
def Core.vadd (c : Core) (td ta tb : BitVec 5) (xs : BitVec 6) (form : BitVec 3) (rnd : BitVec 2) (inf : Bool) : Except Exc Core :=
  c.binary 0x80#8 td ta tb xs form isFI rnd inf fun e a b =>
    c.arith (c.tr ta).fmt rnd inf (addVal false) (· + ·) e a b

/-- VSUB (R182). -/
def Core.vsub (c : Core) (td ta tb : BitVec 5) (xs : BitVec 6) (form : BitVec 3) (rnd : BitVec 2) (inf : Bool) : Except Exc Core :=
  c.binary 0x81#8 td ta tb xs form isFI rnd inf fun e a b =>
    c.arith (c.tr ta).fmt rnd inf (fun x y => addVal false x y.negate) (· - ·) e a b

/-- VMUL (R182). -/
def Core.vmul (c : Core) (td ta tb : BitVec 5) (xs : BitVec 6) (form : BitVec 3) (rnd : BitVec 2) (inf : Bool) : Except Exc Core :=
  c.binary 0x82#8 td ta tb xs form isFI rnd inf fun e a b =>
    c.arith (c.tr ta).fmt rnd inf mulVal (· * ·) e a b

/-- VDIV (R182). -/
def Core.vdiv (c : Core) (td ta tb : BitVec 5) (xs : BitVec 6) (form : BitVec 3) (rnd : BitVec 2) (inf : Bool) : Except Exc Core :=
  c.binary 0x8F#8 td ta tb xs form isF rnd inf fun e a b =>
    c.arith (c.tr ta).fmt rnd inf divVal (· - ·) e a b

/-- VMIN (R182). -/
def Core.vmin (c : Core) (td ta tb : BitVec 5) (xs : BitVec 6) (form : BitVec 3) : Except Exc Core :=
  c.binary 0x84#8 td ta tb xs form isFI 0#2 false fun _ a b => minMaxElem (c.tr ta).fmt true a b

/-- VMAX (R182). -/
def Core.vmax (c : Core) (td ta tb : BitVec 5) (xs : BitVec 6) (form : BitVec 3) : Except Exc Core :=
  c.binary 0x85#8 td ta tb xs form isFI 0#2 false fun _ a b => minMaxElem (c.tr ta).fmt false a b

/-- A code written as an element: SQ32 never takes 0x8000_0000 (R40). -/
def writeCode (fmt : BitVec 5) (v : Nat) : Nat := if fmt = 12#5 ∧ v = 2 ^ 31 then 2 ^ 31 + 1 else v

/-- VAND (R182, R183). -/
def Core.vand (c : Core) (td ta tb : BitVec 5) (xs : BitVec 6) (form : BitVec 3) : Except Exc Core :=
  c.binary 0x86#8 td ta tb xs form tagOk 0#2 false fun _ a b => (writeCode (c.tr ta).fmt (a &&& b), 0#5)

/-- VOR (R182, R183). -/
def Core.vor (c : Core) (td ta tb : BitVec 5) (xs : BitVec 6) (form : BitVec 3) : Except Exc Core :=
  c.binary 0x87#8 td ta tb xs form tagOk 0#2 false fun _ a b => (writeCode (c.tr ta).fmt (a ||| b), 0#5)

/-- VXOR (R182, R183). -/
def Core.vxor (c : Core) (td ta tb : BitVec 5) (xs : BitVec 6) (form : BitVec 3) : Except Exc Core :=
  c.binary 0x88#8 td ta tb xs form tagOk 0#2 false fun _ a b => (writeCode (c.tr ta).fmt (a ^^^ b), 0#5)

def isIB (fmt : BitVec 5) : Bool := isI fmt || isB fmt

/-- VSHL (R183): the count is the low 6 bits of b's element; a count of the width or more gives 0. -/
def Core.vshl (c : Core) (td ta tb : BitVec 5) (xs : BitVec 6) (form : BitVec 3) : Except Exc Core :=
  c.binary 0x89#8 td ta tb xs form isIB 0#2 false fun _ a b =>
    let w := elemBits (c.tr ta).fmt
    let s := b % 64
    (if w ≤ s then 0 else a * 2 ^ s % 2 ^ w, 0#5)

/-- VSHR and VSHR.A (R183): .A on UINT8 is logical. -/
def Core.vshr (c : Core) (td ta tb : BitVec 5) (xs : BitVec 6) (form : BitVec 3) (sel : BitVec 4) : Except Exc Core :=
  c.binary 0x8A#8 td ta tb xs form isIB 0#2 false fun _ a b =>
    let fmt := (c.tr ta).fmt
    let w := elemBits fmt
    let s := b % 64
    if sel = 1#4 ∧ fmt ≠ 9#5 then (wrap w (signed w a / (2 ^ s : Nat)), 0#5)
    else (if w ≤ s then 0 else a / 2 ^ s, 0#5)

/-- VABS (R182, R183). -/
def Core.vabs (c : Core) (td ta : BitVec 5) : Except Exc Core :=
  c.unary 0x8D#8 td ta isFI 0#2 false fun _ a =>
    let fmt := (c.tr ta).fmt
    let w := elemBits fmt
    (if isF fmt then a % 2 ^ (w - 1) else wrap w (signed w a).natAbs, 0#5)

/-- VNEG (R182, R183). -/
def Core.vneg (c : Core) (td ta : BitVec 5) : Except Exc Core :=
  c.unary 0x8E#8 td ta isFI 0#2 false fun _ a =>
    let fmt := (c.tr ta).fmt
    let w := elemBits fmt
    (if isF fmt then a ^^^ 2 ^ (w - 1) else wrap w (-(signed w a)), 0#5)

/-- VFMA (R182): a·b + c rounded once; tc is checked as the tile form checks tb (R177). -/
def Core.vfma (c : Core) (td ta tb tc : BitVec 5) (xs : BitVec 6) (form : BitVec 3) (rnd : BitVec 2) (inf : Bool) :
    Except Exc Core := do
  let op := 0x83#8
  let a := c.tr ta
  let b := c.tr tb
  let t := c.tr tc
  c.needTiles op (if formOf form = .xs then [td, ta, tc] else [td, ta, tb, tc])
  c.needEngine op 4
  needTile op 1 ta a isF
  if formOf form ≠ .xs then needTile op 2 tb b isF
  needTile op 3 tc t isF
  if formOf form ≠ .xs then need (b.fmt == a.fmt) (vfault op 2 4 2 tb)
  need (t.fmt == a.fmt) (vfault op 2 4 3 tc)
  needForm op 2 tb (formOf form) a b
  needForm op 3 tc .tile a t
  let f := (floatOf a.fmt).getD fp32
  c.finishTile op td a.rows a.rowbytes a.fmt a.quant rnd
    (mapTile3 (fun e x y z => c.roundElem f rnd inf e (fmaVal false (decodeFloat f x) (decodeFloat f y) (decodeFloat f z)))
      0 a.elems (operandB (formOf form) a b (c.xr xs)) t.elems)

/-- VCMP (R184): the sel codes depend on ta's format; the destination holds 1 or 0. -/
def Core.vcmp (c : Core) (td ta tb : BitVec 5) (xs : BitVec 6) (form : BitVec 3) (shape : BitVec 3) (fmt : BitVec 5)
    (sel : BitVec 4) : Except Exc Core := do
  let op := 0x8B#8
  let a := c.tr ta
  let b := c.tr tb
  c.needTiles op (if formOf form = .xs then [td, ta] else [td, ta, tb])
  c.needEngine op 4
  needTile op 1 ta a isFI
  if formOf form ≠ .xs then needTile op 2 tb b isFI
  need (if isI a.fmt then intCond sel else fpCond sel) (c.illegal 3 op)
  if formOf form ≠ .xs then need (b.fmt == a.fmt) (vfault op 2 4 2 tb)
  needForm op 2 tb (formOf form) a b
  need (c.hRows shape == a.rows) (vfault op 2 2 0 td)
  need (elemCount fmt (c.hRowbytes shape) == a.count) (vfault op 2 3 0 td)
  needProduced op td fmt (c.hRowbytes shape)
  c.finishTile op td a.rows (c.hRowbytes shape) fmt 0#4 0#2
    (mapTile3 (fun _ x y _ =>
        match floatOf a.fmt with
        | some f =>
          let r := fpCondHolds sel (decodeFloat f x) (decodeFloat f y)
          (if r.1 then 1 else 0, r.2)
        | none =>
          (if intCondHolds sel (BitVec.ofInt 64 (intOf a.fmt x)) (BitVec.ofInt 64 (intOf a.fmt y)) then 1 else 0, 0#5))
      0 a.elems (operandB (formOf form) a b (c.xr xs)) a.elems)

/-- VSEL (R182, R185): c ≠ 0 chooses a, else b; the bits are copied, the SQ32 code 0x80000000 too (DESIGN CHOICE,
log entry 50). -/
def Core.vsel (c : Core) (td ta tb tc : BitVec 5) (xs : BitVec 6) (form : BitVec 3) : Except Exc Core := do
  let op := 0x8C#8
  let a := c.tr ta
  let b := c.tr tb
  let t := c.tr tc
  c.needTiles op (if formOf form = .xs then [td, ta, tc] else [td, ta, tb, tc])
  c.needEngine op 4
  needTile op 1 ta a tagOk
  if formOf form ≠ .xs then needTile op 2 tb b tagOk
  needTile op 3 tc t isIB
  if formOf form ≠ .xs then need (b.fmt == a.fmt) (vfault op 2 4 2 tb)
  needForm op 2 tb (formOf form) a b
  need (t.rows == a.rows) (vfault op 2 2 3 tc)
  need (t.count == a.count) (vfault op 2 3 3 tc)
  c.finishTile op td a.rows a.rowbytes a.fmt a.quant 0#2
    (mapTile3 (fun _ x y z => (if z ≠ 0 then x else y, 0#5)) 0 a.elems (operandB (formOf form) a b (c.xr xs)) t.elems)

/-- VCLAMP on one element: MIN(MAX(a, lo), hi) with the operations of VMIN and VMAX (R193). -/
def clampElem (fmt : BitVec 5) (a lo hi : Nat) : ElemOut :=
  let (m, f) := minMaxElem fmt false a lo
  let (r, g) := minMaxElem fmt true m hi
  (r, f ||| g)

/-- VCLAMP (R193). -/
def Core.vclamp (c : Core) (td ta tb tc : BitVec 5) (xs : BitVec 6) (imm : BitVec 32) (form : BitVec 3) : Except Exc Core := do
  let op := 0x9C#8
  let a := c.tr ta
  let b := c.tr tb
  let t := c.tr tc
  let fm := formOf form
  c.needTiles op (if fm = .xs then [td, ta] else [td, ta, tb, tc])
  c.needEngine op 4
  needTile op 1 ta a isFI
  if fm ≠ .xs then
    needTile op 2 tb b isFI
    needTile op 3 tc t isFI
  need (!(fm == .xs && (a.fmt == 11#5 || a.fmt == 1#5))) (c.illegal 3 op)
  if fm ≠ .xs then
    need (b.fmt == a.fmt) (vfault op 2 4 2 tb)
    need (t.fmt == a.fmt) (vfault op 2 4 3 tc)
  needForm op 2 tb fm a b
  needForm op 3 tc fm a t
  let hi := if fm = .xs then List.replicate a.rows (List.replicate a.count (imm.toNat % 2 ^ elemBits a.fmt))
    else operandB fm a t 0#64
  c.finishTile op td a.rows a.rowbytes a.fmt a.quant 0#2
    (mapTile3 (fun _ x lo h => clampElem a.fmt x lo h) 0 a.elems (operandB fm a b (c.xr xs)) hi)

end Sys2Proof.Machine
end

