-- ==== Sys2Proof/Machine/Vectors.lean ====
section
/-! DEFINITION. The meanings of the vector groups 0x80 to 0xA0 (R175-R201): each applies its register function to the core in focus and retires or
takes its fault. -/

namespace Sys2Proof.Machine

/-- VADD (R182). -/
def execVadd (td ta tb : BitVec 5) (xs : BitVec 6) (form : BitVec 3) (rnd : BitVec 2) (inf : Bool) (s : State) :
    Host.Outcome State Fault Refusal :=
  s.finishCore (s.core.vadd td ta tb xs form rnd inf)

/-- VSUB (R182). -/
def execVsub (td ta tb : BitVec 5) (xs : BitVec 6) (form : BitVec 3) (rnd : BitVec 2) (inf : Bool) (s : State) :
    Host.Outcome State Fault Refusal :=
  s.finishCore (s.core.vsub td ta tb xs form rnd inf)

/-- VMUL (R182). -/
def execVmul (td ta tb : BitVec 5) (xs : BitVec 6) (form : BitVec 3) (rnd : BitVec 2) (inf : Bool) (s : State) :
    Host.Outcome State Fault Refusal :=
  s.finishCore (s.core.vmul td ta tb xs form rnd inf)

/-- VFMA (R182). -/
def execVfma (td ta tb : BitVec 5) (xs : BitVec 6) (form : BitVec 3) (tc : BitVec 5) (rnd : BitVec 2) (inf : Bool) (s : State) :
    Host.Outcome State Fault Refusal :=
  s.finishCore (s.core.vfma td ta tb tc xs form rnd inf)

/-- VMIN (R182). -/
def execVmin (td ta tb : BitVec 5) (xs : BitVec 6) (form : BitVec 3) (s : State) : Host.Outcome State Fault Refusal :=
  s.finishCore (s.core.vmin td ta tb xs form)

/-- VMAX (R182). -/
def execVmax (td ta tb : BitVec 5) (xs : BitVec 6) (form : BitVec 3) (s : State) : Host.Outcome State Fault Refusal :=
  s.finishCore (s.core.vmax td ta tb xs form)

/-- VAND (R182). -/
def execVand (td ta tb : BitVec 5) (xs : BitVec 6) (form : BitVec 3) (s : State) : Host.Outcome State Fault Refusal :=
  s.finishCore (s.core.vand td ta tb xs form)

/-- VOR (R182). -/
def execVor (td ta tb : BitVec 5) (xs : BitVec 6) (form : BitVec 3) (s : State) : Host.Outcome State Fault Refusal :=
  s.finishCore (s.core.vor td ta tb xs form)

/-- VXOR (R182). -/
def execVxor (td ta tb : BitVec 5) (xs : BitVec 6) (form : BitVec 3) (s : State) : Host.Outcome State Fault Refusal :=
  s.finishCore (s.core.vxor td ta tb xs form)

/-- VSHL (R183). -/
def execVshl (td ta tb : BitVec 5) (xs : BitVec 6) (form : BitVec 3) (s : State) : Host.Outcome State Fault Refusal :=
  s.finishCore (s.core.vshl td ta tb xs form)

/-- VSHR (R183). -/
def execVshr (td ta tb : BitVec 5) (xs : BitVec 6) (form : BitVec 3) (sel : BitVec 4) (s : State) : Host.Outcome State Fault Refusal :=
  s.finishCore (s.core.vshr td ta tb xs form sel)

/-- VCMP (R184). -/
def execVcmp (td ta tb : BitVec 5) (xs : BitVec 6) (form shape : BitVec 3) (fmt : BitVec 5) (sel : BitVec 4) (s : State) :
    Host.Outcome State Fault Refusal :=
  s.finishCore (s.core.vcmp td ta tb xs form shape fmt sel)

/-- VSEL (R185). -/
def execVsel (td ta tb : BitVec 5) (xs : BitVec 6) (form : BitVec 3) (tc : BitVec 5) (s : State) : Host.Outcome State Fault Refusal :=
  s.finishCore (s.core.vsel td ta tb tc xs form)

/-- VABS (R183). -/
def execVabs (td ta : BitVec 5) (s : State) : Host.Outcome State Fault Refusal :=
  s.finishCore (s.core.vabs td ta)

/-- VNEG (R183). -/
def execVneg (td ta : BitVec 5) (s : State) : Host.Outcome State Fault Refusal :=
  s.finishCore (s.core.vneg td ta)

/-- VDIV (R182). -/
def execVdiv (td ta tb : BitVec 5) (xs : BitVec 6) (form : BitVec 3) (rnd : BitVec 2) (inf : Bool) (s : State) :
    Host.Outcome State Fault Refusal :=
  s.finishCore (s.core.vdiv td ta tb xs form rnd inf)

/-- VCVT (R186). -/
def execVcvt (td ta tb tc : BitVec 5) (shape : BitVec 3) (fmt : BitVec 5) (quant : BitVec 4) (rnd : BitVec 2) (inf amax : Bool) (s : State) :
    Host.Outcome State Fault Refusal :=
  s.finishCore (s.core.vcvt td ta tb tc shape fmt quant rnd inf amax)

/-- VEXP2 (R188). -/
def execVexp2 (td ta : BitVec 5) (s : State) : Host.Outcome State Fault Refusal :=
  s.finishCore (s.core.vexp2 td ta)

/-- VLOG2 (R188). -/
def execVlog2 (td ta : BitVec 5) (s : State) : Host.Outcome State Fault Refusal :=
  s.finishCore (s.core.vlog2 td ta)

/-- VRCP (R188). -/
def execVrcp (td ta : BitVec 5) (rnd : BitVec 2) (inf : Bool) (s : State) : Host.Outcome State Fault Refusal :=
  s.finishCore (s.core.vrcp td ta rnd inf)

/-- VRSQ (R188). -/
def execVrsq (td ta : BitVec 5) (s : State) : Host.Outcome State Fault Refusal :=
  s.finishCore (s.core.vrsq td ta)

/-- VSQRT (R188). -/
def execVsqrt (td ta : BitVec 5) (rnd : BitVec 2) (inf : Bool) (s : State) : Host.Outcome State Fault Refusal :=
  s.finishCore (s.core.vsqrt td ta rnd inf)

/-- VTANH (R188). -/
def execVtanh (td ta : BitVec 5) (s : State) : Host.Outcome State Fault Refusal :=
  s.finishCore (s.core.vtanh td ta)

/-- VSIGM (R188). -/
def execVsigm (td ta : BitVec 5) (s : State) : Host.Outcome State Fault Refusal :=
  s.finishCore (s.core.vsigm td ta)

/-- VGELU (R188). -/
def execVgelu (td ta : BitVec 5) (s : State) : Host.Outcome State Fault Refusal :=
  s.finishCore (s.core.vgelu td ta)

/-- VAMAX (R190). -/
def execVamax (ta tb : BitVec 5) (quant : BitVec 4) (s : State) : Host.Outcome State Fault Refusal :=
  s.finishCore (s.core.vamax ta tb quant)

/-- VRAND (R191). -/
def execVrand (td : BitVec 5) (shape : BitVec 3) (fmt : BitVec 5) (quant : BitVec 4) (s : State) : Host.Outcome State Fault Refusal :=
  s.finishCore (s.core.vrand td shape fmt quant)

/-- VIOTA (R192). -/
def execViota (td : BitVec 5) (shape : BitVec 3) (fmt : BitVec 5) (quant : BitVec 4) (xs : BitVec 6) (imm : BitVec 32) (s : State) :
    Host.Outcome State Fault Refusal :=
  s.finishCore (s.core.viota td shape fmt quant xs imm)

/-- VCLAMP (R193). -/
def execVclamp (td ta tb tc : BitVec 5) (xs : BitVec 6) (imm : BitVec 32) (form : BitVec 3) (s : State) :
    Host.Outcome State Fault Refusal :=
  s.finishCore (s.core.vclamp td ta tb tc xs imm form)

/-- VRSUM (R195). -/
def execVrsum (td ta : BitVec 5) (shape : BitVec 3) (fmt : BitVec 5) (rnd : BitVec 2) (inf : Bool) (s : State) :
    Host.Outcome State Fault Refusal :=
  s.finishCore (s.core.vrsum td ta shape fmt rnd inf)

/-- VRMAX (R195). -/
def execVrmax (td ta : BitVec 5) (shape : BitVec 3) (fmt : BitVec 5) (s : State) : Host.Outcome State Fault Refusal :=
  s.finishCore (s.core.vrmax td ta shape fmt)

/-- VRMIN (R195). -/
def execVrmin (td ta : BitVec 5) (shape : BitVec 3) (fmt : BitVec 5) (s : State) : Host.Outcome State Fault Refusal :=
  s.finishCore (s.core.vrmin td ta shape fmt)

/-- VCSUM (R195). -/
def execVcsum (td ta : BitVec 5) (shape : BitVec 3) (fmt : BitVec 5) (rnd : BitVec 2) (inf : Bool) (s : State) :
    Host.Outcome State Fault Refusal :=
  s.finishCore (s.core.vcsum td ta shape fmt rnd inf)

/-- VCMAX (R195). -/
def execVcmax (td ta : BitVec 5) (shape : BitVec 3) (fmt : BitVec 5) (s : State) : Host.Outcome State Fault Refusal :=
  s.finishCore (s.core.vcmax td ta shape fmt)

/-- VCMIN (R195). -/
def execVcmin (td ta : BitVec 5) (shape : BitVec 3) (fmt : BitVec 5) (s : State) : Host.Outcome State Fault Refusal :=
  s.finishCore (s.core.vcmin td ta shape fmt)

/-- VTRANS (R196). -/
def execVtrans (td ta : BitVec 5) (s : State) : Host.Outcome State Fault Refusal :=
  s.finishCore (s.core.vtrans td ta)

/-- VBCAST (R197). -/
def execVbcast (td ta : BitVec 5) (shape : BitVec 3) (imm : BitVec 32) (sel : BitVec 4) (s : State) : Host.Outcome State Fault Refusal :=
  s.finishCore (s.core.vbcast td ta shape imm sel)

/-- VSHUF (R198). -/
def execVshuf (td ta tb : BitVec 5) (form : BitVec 3) (s : State) : Host.Outcome State Fault Refusal :=
  s.finishCore (s.core.vshuf td ta tb form)

/-- VSCAN (R199). -/
def execVscan (td ta : BitVec 5) (sel : BitVec 4) (rnd : BitVec 2) (inf : Bool) (s : State) : Host.Outcome State Fault Refusal :=
  s.finishCore (s.core.vscan td ta sel rnd inf)

/-- VRDOT (R200). -/
def execVrdot (td ta tb : BitVec 5) (shape : BitVec 3) (fmt : BitVec 5) (rnd : BitVec 2) (inf : Bool) (form : BitVec 3) (s : State) :
    Host.Outcome State Fault Refusal :=
  s.finishCore (s.core.vrdot td ta tb shape fmt rnd inf form)

end Sys2Proof.Machine
end

