-- ==== Sys2Proof/Machine/Reads.lean ====
section
/-! DEFINITION. What each instruction reads, the class-11 fault of each source (R313, R329), and the entries of the instruction at the
head: precise and after retire (R311, R356). -/

namespace Sys2Proof.Machine

/-! ### Sources -/

/-- The layout of s.finfo for a source of an instruction (R130, R313): front end and system, a scalar memory instruction with its xd field,
an engine with the register number of its role-0 operand, an object or window instruction. -/
inductive Layout where
  | front
  | scalar (xd : BitVec 6)
  | engine (e tile : Nat)
  | index
deriving DecidableEq, Repr

/-- What an instruction reads: scalar registers; tiles, accumulators and pins by role and number (R130); ranges of memory with the row
that each belongs to; an entry of a gradient queue. -/
structure Reading where
  layout : Layout
  regs : List (BitVec 6) := []
  files : List (Nat × Nat) := []
  mem : List (Nat × Nat × Nat) := []
  queued : Bool := false
deriving DecidableEq, Repr

/-- The major opcode of an instruction. -/
def opcodeOf (i : Instr) : BitVec 8 := ((encode i).map fun w => w.extractLsb' 88 8).getD 0#8

/-- s.finfo of a scalar register that failed. An engine's layout has no role for one: role 0 (R130 states none, DESIGN CHOICE, log entry
52). -/
def Layout.ofReg (l : Layout) (op : BitVec 8) (r : BitVec 6) : Word :=
  match l with
  | .engine e tile => engineInfo 0 e 0 tile op
  | _ => scalarInfo r op

/-- s.finfo of memory data that failed. -/
def Layout.ofMem (l : Layout) (op : BitVec 8) (row : Nat) : Word :=
  match l with
  | .front => op.setWidth 64
  | .scalar xd => scalarInfo xd op
  | .engine e tile => engineInfo row e 0 tile op
  | .index => indexInfo 0 op

/-- The addresses of the lines of a range. -/
def linesOf (va n : Nat) : List Nat := if n = 0 then [] else (List.range ((va + n - 1) / 128 - va / 128 + 1)).map fun i => (va / 128 + i) * 128

/-- The class-11 records of what an instruction reads, one for each source (R329): registers, then tiles, banks and slots, then lines of
memory in row order. x0 is no physical register. -/
def Reading.faults (r : Reading) (s : State) (op : BitVec 8) : List Exc :=
  ((r.regs.filter fun x => x != 0#6).map fun x => ⟨11, 2, 0#64, r.layout.ofReg op x⟩) ++
  (r.files.map fun f => ⟨11, 2, 0#64, match r.layout with
    | .engine e _ => engineInfo 0 e f.1 f.2 op
    | _ => engineInfo 0 0 f.1 f.2 op⟩) ++
  (r.mem.flatMap fun m => (linesOf m.2.1 m.2.2).map fun a =>
    ⟨11, if s.inStash a then 3 else 0, BitVec.ofNat 64 a, r.layout.ofMem op m.1⟩) ++
  (if r.queued then [⟨11, 0, Config.faultAddress s.draws, r.layout.ofMem op 0⟩] else [])

/-- Registers that the front end reads. -/
def frontReads (regs : List (BitVec 6)) : Reading := { layout := .front, regs := regs }

/-- A scalar memory instruction (R114): its registers, and the bytes that it loads. -/
def memReads (xd : BitVec 6) (regs : List (BitVec 6)) (ea : Word) (n : Nat) : Reading :=
  { layout := .scalar xd, regs := regs, mem := [(0, ea.toNat, n)] }

/-- Source tiles with their roles, of an engine. -/
def engineReads (e td : Nat) (files : List (Nat × Nat)) : Reading := { layout := .engine e td, files := files }

/-- A source tile in role 1, 2, 3. -/
def roleA (t : BitVec 5) : Nat × Nat := (1, t.toNat)
def roleB (t : BitVec 5) : Nat × Nat := (2, t.toNat)
def roleC (t : BitVec 5) : Nat × Nat := (3, t.toNat)

/-- The sources of a vector instruction with a second operand by form (R177). -/
def formReads (td ta tb : BitVec 5) (xs : BitVec 6) (form : BitVec 3) (more : List (Nat × Nat)) : Reading :=
  if formOf form = .xs then { layout := .engine 4 td.toNat, regs := [xs], files := roleA ta :: more }
  else { layout := .engine 4 td.toNat, files := roleA ta :: roleB tb :: more }

/-- The companion of an E2M1 operand. -/
def companion (c : Core) (ta tb : BitVec 5) : List (Nat × Nat) := if (c.tr ta).fmt = 7#5 then [roleB tb] else []

/-- An accumulator in role 5 and a pin in role 6 (R169). -/
def roleAcc (z : Bool) (a : BitVec 3) : List (Nat × Nat) := if z then [] else [(5, a.toNat)]
def rolePin (p : BitVec 2) : Nat × Nat := (6, p.toNat)

/-- The rows that TLD reads, and those of TLDX. -/
def rowReads (as : List Int) (rb : Nat) : List (Nat × Nat × Nat) := as.zipIdx.map fun p => (p.2, p.1.toNat, rb)

/-- The keys that SKUPD and SKQRY read: a base in xb or a key tile. -/
def keyRegs (sel : BitVec 4) (xb : BitVec 6) : List (BitVec 6) := if sel = 1#4 then [] else [xb]
def keyTiles (sel : BitVec 4) (tk : BitVec 5) : List (Nat × Nat) := if sel = 1#4 then [(4, tk.toNat)] else []

/-- What the sketch unit reads for a query (R214): the record, and a counter of every row for each key. -/
def State.queryReads (s : State) (a : Nat) (keys : List Int) : List (Nat × Nat × Nat) :=
  let r := s.record s.core.asid.toNat s.core.colour.toNat a
  (0, a, 64) :: keys.flatMap fun k => (List.range r.depth).map fun i => (0, r.counterOf i k.toNat, 4)

/-- What an instruction reads in a state. -/
def State.reading (s : State) (i : Instr) : Reading :=
  let c := s.core
  match i with
  -- front end and scalar arithmetic
  | .mts xa _ | .mtsSeed xa | .mtsAsid xa | .mtsTvec xa | .mtsPs xa | .mtsShape _ xa | .sleep _ xa | .preack xa => frontReads [xa]
  | .stmap _ xa xb _ | .stmapAperture xa xb => { layout := .index, regs := [xa, xb] }
  | .objdecl xa | .objdrop xa => { layout := .index, regs := [xa], mem := [(0, (c.xr xa).toNat, 32)] }
  | .add _ xa xb | .sub _ xa xb | .mul _ xa xb | .and _ xa xb | .or _ xa xb | .xor _ xa xb | .andn _ xa xb | .shl _ xa xb | .shr _ xa xb
  | .sar _ xa xb => frontReads [xa, xb]
  | .mulh _ xa xb _ | .div _ xa xb _ | .rem _ xa xb _ | .min _ xa xb _ | .max _ xa xb _ | .cmp _ xa xb _ => frontReads [xa, xb]
  | .addi _ xa _ | .muli _ xa _ | .andi _ xa _ | .ori _ xa _ | .xori _ xa _ | .shli _ xa _ | .shri _ xa _ | .sari _ xa _ | .sext _ xa _
  | .zext _ xa _ => frontReads [xa]
  | .cmpi _ xa _ _ => frontReads [xa]
  | .clz _ xa | .ctz _ xa | .popc _ xa => frontReads [xa]
  | .sel _ xa xb xc => frontReads [xa, xb, xc]
  | .fadd _ xa xb _ _ | .fsub _ xa xb _ _ | .fmul _ xa xb _ _ | .fdiv _ xa xb _ _ | .fcmp _ xa xb _ _ => frontReads [xa, xb]
  | .ffma _ xa xb xc _ _ => frontReads [xa, xb, xc]
  | .fsqrt _ xa _ _ => frontReads [xa]
  | .fmin _ xa xb _ | .fmax _ xa xb _ => frontReads [xa, xb]
  | .fcvt _ xa _ _ _ => frontReads [xa]
  -- control
  | .br xa xb _ _ _ => frontReads [xa, xb]
  | .bri xa _ _ _ _ => frontReads [xa]
  | .jmpr xa | .callr xa => frontReads [xa]
  | .loop xa _ _ => frontReads [xa]
  | .cmpsk xa xb _ _ => frontReads [xa, xb]
  | .cmpski xa _ _ _ => frontReads [xa]
  -- scalar memory
  | .ld xd xa imm size _ => memReads xd [xa] (c.ea xa imm) (sizeBytes size)
  | .lda xd xa imm size _ _ => memReads xd [xa] (c.ea xa imm) (sizeBytes size)
  | .st xd xa imm _ => memReads xd [xd, xa] (c.ea xa imm) 0
  | .stl xd xa imm _ _ => memReads xd [xd, xa] (c.ea xa imm) 0
  | .aadd xd xa xb size _ _ _ | .aand xd xa xb size _ _ _ | .aor xd xa xb size _ _ _ | .axor xd xa xb size _ _ _
  | .aswp xd xa xb size _ _ _ => memReads xd [xa, xb] (c.xr xa) (sizeBytes size)
  | .amin xd xa xb size _ _ _ _ | .amax xd xa xb size _ _ _ _ => memReads xd [xa, xb] (c.xr xa) (sizeBytes size)
  | .acas xd xa xb xc size _ _ _ => memReads xd [xa, xb, xc] (c.xr xa) (sizeBytes size)
  | .red xa xb _ _ _ => memReads 0#6 [xa, xb] (c.xr xa) 0
  -- tile memory
  | .tld td shape _ xbase xstride xbound _ imm =>
    { layout := .engine 1 td.toNat, regs := [xbase, xstride, xbound], mem := rowReads (c.stridedRows shape xbase xstride imm).addrs (c.hRowbytes shape) }
  | .tst ts _ _ xbase xstride xbound _ => { layout := .engine 1 ts.toNat, regs := [xbase, xstride, xbound], files := [(0, ts.toNat)] }
  | .tldx td shape fmt xbase xpb ti _ imm =>
    { layout := .engine 1 td.toNat, regs := [xbase, xpb], files := [(4, ti.toNat)],
      mem := match c.indexedRows 0x62#8 td.toNat shape fmt xbase xpb (indexTile ti) imm with
        | .ok r => rowReads r.addrs (c.hRowbytes shape)
        | .error _ => [] }
  | .tstx ts _ _ xbase xpb ti _ => { layout := .engine 1 ts.toNat, regs := [xbase, xpb], files := [(0, ts.toNat), (4, ti.toNat)] }
  -- tile moves
  | .tfill td _ _ _ xs => { layout := .engine 4 td.toNat, regs := [xs] }
  | .tmov td ta => engineReads 4 td.toNat [roleA ta]
  | .tmovx ta _ _ => engineReads 4 0 [roleA ta]
  | .tmovs td ta xs _ => { layout := .engine 4 td.toNat, regs := [xs], files := [roleA ta] }
  | .treshape td ta _ _ _ => engineReads 4 td.toNat [roleA ta]
  -- matrix engines
  | .mpin pin ta tb => engineReads (2 + pin.toNat % 2) 0 (roleA ta :: companion c ta tb)
  | .mma acc pin ta tb z => engineReads (2 + acc.toNat % 2) 0 (roleA ta :: companion c ta tb ++ roleAcc z acc ++ [rolePin pin])
  | .mmat acc pin ta z _ => engineReads (2 + acc.toNat % 2) 0 (roleA ta :: roleAcc z acc ++ [rolePin pin])
  | .mopa acc ta tb z _ => engineReads (2 + acc.toNat % 2) 0 (roleA ta :: roleB tb :: roleAcc z acc)
  | .mdrain td acc _ _ _ _ _ _ _ => engineReads (2 + acc.toNat % 2) td.toNat [(5, acc.toNat)]
  | .maccld acc ta _ z => engineReads (2 + acc.toNat % 2) 0 (roleA ta :: roleAcc z acc)
  | .wdrain td pin _ => engineReads (2 + pin.toNat % 2) td.toNat [rolePin pin]
  -- vector engine
  | .vadd td ta tb xs form _ _ | .vsub td ta tb xs form _ _ | .vmul td ta tb xs form _ _ | .vdiv td ta tb xs form _ _ =>
    formReads td ta tb xs form []
  | .vfma td ta tb xs form tc _ _ => formReads td ta tb xs form [roleC tc]
  | .vmin td ta tb xs form | .vmax td ta tb xs form | .vand td ta tb xs form | .vor td ta tb xs form | .vxor td ta tb xs form
  | .vshl td ta tb xs form => formReads td ta tb xs form []
  | .vshr td ta tb xs form _ => formReads td ta tb xs form []
  | .vcmp td ta tb xs form _ _ _ => formReads td ta tb xs form []
  | .vsel td ta tb xs form tc => formReads td ta tb xs form [roleC tc]
  | .vclamp td ta tb tc xs _ form => formReads td ta tb xs form (if formOf form = .xs then [] else [roleC tc])
  | .vcvt td ta tb _ _ _ _ _ _ _ => engineReads 4 td.toNat (roleA ta :: companion c ta tb)
  | .vamax ta tb _ => engineReads 4 0 (roleA ta :: companion c ta tb)
  | .vabs td ta | .vneg td ta | .vexp2 td ta | .vlog2 td ta | .vrsq td ta | .vtanh td ta | .vsigm td ta | .vgelu td ta | .vtrans td ta =>
    engineReads 4 td.toNat [roleA ta]
  | .vrcp td ta _ _ | .vsqrt td ta _ _ => engineReads 4 td.toNat [roleA ta]
  | .viota td _ _ _ xs _ => { layout := .engine 4 td.toNat, regs := [xs] }
  | .vrsum td ta _ _ _ _ | .vcsum td ta _ _ _ _ => engineReads 4 td.toNat [roleA ta]
  | .vrmax td ta _ _ | .vrmin td ta _ _ | .vcmax td ta _ _ | .vcmin td ta _ _ => engineReads 4 td.toNat [roleA ta]
  | .vbcast td ta _ _ _ | .vscan td ta _ _ _ => engineReads 4 td.toNat [roleA ta]
  | .vshuf td ta tb _ => engineReads 4 td.toNat [roleA ta, roleB tb]
  | .vrdot td ta tb _ _ _ _ _ => engineReads 4 td.toNat [roleA ta, roleB tb]
  -- post port; CPYWAIT, LKWAIT and LKSTAT run in the front end (R348)
  | .skinit xa xb xc _ _ _ _ => { layout := .engine 6 0, regs := [xa, xb, xc] }
  | .skzero xa => { layout := .engine 6 0, regs := [xa] }
  | .skupd xa ta xb tk sel => { layout := .engine 6 0, regs := xa :: keyRegs sel xb, files := roleA ta :: keyTiles sel tk }
  | .skqry td xa xb tk sel shape =>
    { layout := .engine 6 td.toNat, regs := xa :: keyRegs sel xb, files := keyTiles sel tk,
      mem := s.queryReads (c.xr xa).toNat (keysOf (sel == 1#4) (c.xr xb) (c.tr tk) (c.hRows shape * (c.hRowbytes shape / 4))) }
  | .skadd xa xb | .skmul xa xb => { layout := .engine 6 0, regs := [xa, xb] }
  | .skstat _ xa _ => { layout := .engine 6 0, regs := [xa], mem := s.queryReads (c.xr xa).toNat [] }
  | .gqpush xa ta _ _ _ _ => { layout := .engine 6 0, regs := [xa], files := [roleA ta] }
  | .gqpop _ td _ _ _ _ => { layout := .engine 6 td.toNat, queued := true }
  | .gqpops _ td _ _ _ => { layout := .engine 6 td.toNat, queued := true }
  | .msgsend xa xb ta _ _ => { layout := .engine 6 0, regs := [xa, xb], files := [roleA ta] }
  | .cpywait _ xa xb | .lkwait _ xa xb => frontReads [xa, xb]
  | .lkred _ xa xb _ => { layout := .engine 6 0, regs := [xa, xb] }
  | .lkskadd _ xa _ => { layout := .engine 6 0, regs := [xa] }
  | .lkstat _ xa => frontReads [xa]
  -- Owlwire and rendezvous
  | .sywait _ xa _ _ => frontReads [xa]
  | .sybc _ xa xc _ sel _ _ => frontReads (if sel = 1#4 then [xa, xc] else [xc])
  | .syred _ xa xc _ _ _ _ _ => frontReads [xa, xc]
  | .rzinit xa xb => frontReads [xa, xb]
  | .rzarr xa _ _ => frontReads [xa]
  | .rzwait _ xa xb _ _ => { layout := .front, regs := [xa, xb], mem := [(0, (c.xr xa).toNat, 16)] }
  | .tshr _ _ => frontReads []
  | _ => frontReads []

/-! ### Entries of the instruction at the head -/

/-- What an instruction of the table does when it runs; none for an event. -/
def meaning (i : Instr) : Option (State → Host.Outcome State Fault Refusal) :=
  match i with
  | .nop => some execNop
  | .halt => some execHalt
  | .trap imm => some (execTrap imm)
  | .syscall imm => some (execSyscall imm)
  | .eret => some execEret
  | .mfs xd sreg => some (execMfs xd sreg)
  | .mts xa sreg => some (execMts xa sreg)
  | .mtsSeed xa => some (execMtsSeed xa)
  | .mtsAsid xa => some (execMtsAsid xa)
  | .mtsTvec xa => some (execMtsTvec xa)
  | .mtsPs xa => some (execMtsPs xa)
  | .mtsShape h xa => some (execMtsShape h xa)
  | .ifence => some execIfence
  | .ctxmark => some execCtxmark
  | .sleep xd xa => some (execSleep xd xa)
  | .preack xa => some (execPreack xa)
  | .objdecl xa => some (execObjdecl xa)
  | .objdrop xa => some (execObjdrop xa)
  | .stmap index xa xb imm => some (execStmap index xa xb imm)
  | .stmapAperture xa xb => some (execStmapAperture xa xb)
  | .stunmap index => some (execStunmap index)
  | .stflush index sel => some (execStflush index sel)
  | .add xd xa xb => some (execAdd xd xa xb)
  | .sub xd xa xb => some (execSub xd xa xb)
  | .mul xd xa xb => some (execMul xd xa xb)
  | .mulh xd xa xb u => some (execMulh xd xa xb u)
  | .div xd xa xb u => some (execDiv xd xa xb u)
  | .rem xd xa xb u => some (execRem xd xa xb u)
  | .and xd xa xb => some (execAnd xd xa xb)
  | .or xd xa xb => some (execOr xd xa xb)
  | .xor xd xa xb => some (execXor xd xa xb)
  | .andn xd xa xb => some (execAndn xd xa xb)
  | .shl xd xa xb => some (execShl xd xa xb)
  | .shr xd xa xb => some (execShr xd xa xb)
  | .sar xd xa xb => some (execSar xd xa xb)
  | .min xd xa xb u => some (execMin xd xa xb u)
  | .max xd xa xb u => some (execMax xd xa xb u)
  | .cmp xd xa xb cond => some (execCmp xd xa xb cond)
  | .addi xd xa imm => some (execAddi xd xa imm)
  | .muli xd xa imm => some (execMuli xd xa imm)
  | .andi xd xa imm => some (execAndi xd xa imm)
  | .ori xd xa imm => some (execOri xd xa imm)
  | .xori xd xa imm => some (execXori xd xa imm)
  | .shli xd xa imm => some (execShli xd xa imm)
  | .shri xd xa imm => some (execShri xd xa imm)
  | .sari xd xa imm => some (execSari xd xa imm)
  | .cmpi xd xa imm cond => some (execCmpi xd xa imm cond)
  | .movi xd imm => some (execMovi xd imm)
  | .clz xd xa => some (execClz xd xa)
  | .ctz xd xa => some (execCtz xd xa)
  | .popc xd xa => some (execPopc xd xa)
  | .sext xd xa imm => some (execSext xd xa imm)
  | .zext xd xa imm => some (execZext xd xa imm)
  | .sel xd xa xb xc => some (execSel xd xa xb xc)
  | .fadd xd xa xb width rmode => some (execFadd xd xa xb width rmode)
  | .fsub xd xa xb width rmode => some (execFsub xd xa xb width rmode)
  | .fmul xd xa xb width rmode => some (execFmul xd xa xb width rmode)
  | .ffma xd xa xb xc width rmode => some (execFfma xd xa xb xc width rmode)
  | .fdiv xd xa xb width rmode => some (execFdiv xd xa xb width rmode)
  | .fsqrt xd xa width rmode => some (execFsqrt xd xa width rmode)
  | .fmin xd xa xb width => some (execFmin xd xa xb width)
  | .fmax xd xa xb width => some (execFmax xd xa xb width)
  | .fcmp xd xa xb width cond => some (execFcmp xd xa xb width cond)
  | .fcvt xd xa stype dtype rmode => some (execFcvt xd xa stype dtype rmode)
  | .br xa xb cond tslot imm => some (execBr xa xb cond tslot imm)
  | .bri xa k cond tslot imm => some (execBri xa k cond tslot imm)
  | .jmp tslot imm => some (execJmp tslot imm)
  | .jmpr xa => some (execJmpr xa)
  | .call tslot imm => some (execCall tslot imm)
  | .callr xa => some (execCallr xa)
  | .loop xa tslot imm => some (execLoop xa tslot imm)
  | .cmpsk xa xb cond skip => some (execCmpsk xa xb cond skip)
  | .cmpski xa cond skip imm => some (execCmpski xa cond skip imm)
  | .ld xd xa imm size sx => some (execLd xd xa imm size sx)
  | .st xd xa imm size => some (execSt xd xa imm size)
  | .lda xd xa imm size sx scope => some (execLda xd xa imm size sx scope)
  | .stl xd xa imm size scope => some (execStl xd xa imm size scope)
  | .aadd xd xa xb size scope acq rel => some (execAadd xd xa xb size scope acq rel)
  | .amin xd xa xb size scope acq rel u => some (execAmin xd xa xb size scope acq rel u)
  | .amax xd xa xb size scope acq rel u => some (execAmax xd xa xb size scope acq rel u)
  | .aand xd xa xb size scope acq rel => some (execAand xd xa xb size scope acq rel)
  | .aor xd xa xb size scope acq rel => some (execAor xd xa xb size scope acq rel)
  | .axor xd xa xb size scope acq rel => some (execAxor xd xa xb size scope acq rel)
  | .aswp xd xa xb size scope acq rel => some (execAswp xd xa xb size scope acq rel)
  | .acas xd xa xb xc size scope acq rel => some (execAcas xd xa xb xc size scope acq rel)
  | .red xa xb scope op type => some (execRed xa xb scope op type)
  | .tld td shape fmt xbase xstride xbound quant imm => some (execTld td shape fmt xbase xstride xbound quant imm)
  | .tst ts shape fmt xbase xstride xbound imm => some (execTst ts shape fmt xbase xstride xbound imm)
  | .tldx td shape fmt xbase xpb ti quant imm => some (execTldx td shape fmt xbase xpb ti quant imm)
  | .tstx ts shape fmt xbase xpb ti imm => some (execTstx ts shape fmt xbase xpb ti imm)
  | .tzero td shape fmt quant => some (execTzero td shape fmt quant)
  | .tfill td shape fmt quant xs => some (execTfill td shape fmt quant xs)
  | .tmov td ta => some (execTmov td ta)
  | .tmovx ta xs imm => some (execTmovx ta xs imm)
  | .tmovs td ta xs imm => some (execTmovs td ta xs imm)
  | .tshr ta xs => some (execTshr ta xs)
  | .treshape td ta shape fmt quant => some (execTreshape td ta shape fmt quant)
  | .mpin pin ta tb => some (execMpin pin ta tb)
  | .mma acc pin ta tb z => some (execMma acc pin ta tb z)
  | .mmat acc pin ta z half => some (execMmat acc pin ta z half)
  | .mopa acc ta tb z half => some (execMopa acc ta tb z half)
  | .mdrain td acc shape fmt quant imm rnd inf amax => some (execMdrain td acc shape fmt quant imm rnd inf amax)
  | .maccld acc ta imm z => some (execMaccld acc ta imm z)
  | .wdrain td pin sel => some (execWdrain td pin sel)
  | .mzero acc => some (execMzero acc)
  | .vadd td ta tb xs form rnd inf => some (execVadd td ta tb xs form rnd inf)
  | .vsub td ta tb xs form rnd inf => some (execVsub td ta tb xs form rnd inf)
  | .vmul td ta tb xs form rnd inf => some (execVmul td ta tb xs form rnd inf)
  | .vfma td ta tb xs form tc rnd inf => some (execVfma td ta tb xs form tc rnd inf)
  | .vmin td ta tb xs form => some (execVmin td ta tb xs form)
  | .vmax td ta tb xs form => some (execVmax td ta tb xs form)
  | .vand td ta tb xs form => some (execVand td ta tb xs form)
  | .vor td ta tb xs form => some (execVor td ta tb xs form)
  | .vxor td ta tb xs form => some (execVxor td ta tb xs form)
  | .vshl td ta tb xs form => some (execVshl td ta tb xs form)
  | .vshr td ta tb xs form sel => some (execVshr td ta tb xs form sel)
  | .vcmp td ta tb xs form shape fmt sel => some (execVcmp td ta tb xs form shape fmt sel)
  | .vsel td ta tb xs form tc => some (execVsel td ta tb xs form tc)
  | .vabs td ta => some (execVabs td ta)
  | .vneg td ta => some (execVneg td ta)
  | .vdiv td ta tb xs form rnd inf => some (execVdiv td ta tb xs form rnd inf)
  | .vcvt td ta tb tc shape fmt quant rnd inf amax => some (execVcvt td ta tb tc shape fmt quant rnd inf amax)
  | .vexp2 td ta => some (execVexp2 td ta)
  | .vlog2 td ta => some (execVlog2 td ta)
  | .vrcp td ta rnd inf => some (execVrcp td ta rnd inf)
  | .vrsq td ta => some (execVrsq td ta)
  | .vsqrt td ta rnd inf => some (execVsqrt td ta rnd inf)
  | .vtanh td ta => some (execVtanh td ta)
  | .vsigm td ta => some (execVsigm td ta)
  | .vgelu td ta => some (execVgelu td ta)
  | .vamax ta tb quant => some (execVamax ta tb quant)
  | .vrand td shape fmt quant => some (execVrand td shape fmt quant)
  | .viota td shape fmt quant xs imm => some (execViota td shape fmt quant xs imm)
  | .vclamp td ta tb tc xs imm form => some (execVclamp td ta tb tc xs imm form)
  | .vrsum td ta shape fmt rnd inf => some (execVrsum td ta shape fmt rnd inf)
  | .vrmax td ta shape fmt => some (execVrmax td ta shape fmt)
  | .vrmin td ta shape fmt => some (execVrmin td ta shape fmt)
  | .vcsum td ta shape fmt rnd inf => some (execVcsum td ta shape fmt rnd inf)
  | .vcmax td ta shape fmt => some (execVcmax td ta shape fmt)
  | .vcmin td ta shape fmt => some (execVcmin td ta shape fmt)
  | .vtrans td ta => some (execVtrans td ta)
  | .vbcast td ta shape imm sel => some (execVbcast td ta shape imm sel)
  | .vshuf td ta tb form => some (execVshuf td ta tb form)
  | .vscan td ta sel rnd inf => some (execVscan td ta sel rnd inf)
  | .vrdot td ta tb shape fmt rnd inf form => some (execVrdot td ta tb shape fmt rnd inf form)
  | .skinit xa xb xc depth lgw scale seedset => some (execSkinit xa xb xc depth lgw scale seedset)
  | .skzero xa => some (execSkzero xa)
  | .skupd xa ta xb tk sel => some (execSkupd xa ta xb tk sel)
  | .skqry td xa xb tk sel shape => some (execSkqry td xa xb tk sel shape)
  | .skadd xa xb => some (execSkadd xa xb)
  | .skmul xa xb => some (execSkmul xa xb)
  | .skfence => some execSkfence
  | .skstat xd xa sel => some (execSkstat xd xa sel)
  | .gqpush xa ta index imm rel scope => some (execGqpush xa ta index imm rel scope)
  | .gqpop xd td index imm acq scope => some (execGqpop xd td index imm acq scope)
  | .gqpops xd td index acq scope => some (execGqpops xd td index acq scope)
  | .gqstat xd index imm sel => some (execGqstat xd index imm sel)
  | .msgsend xa xb ta rel scope => some (execMsgsend xa xb ta rel scope)
  | .msgwait xd => some (execMsgwait xd)
  | .msgrecv xd td acq scope => some (execMsgrecv xd td acq scope)
  | .cpygo xd index => some (execCpygo xd index)
  | .cpywait xd xa xb => some (execCpywait xd xa xb)
  | .cpystat xd index => some (execCpystat xd index)
  | .cpycancel xd index => some (execCpycancel xd index)
  | .lkred xd xa xb index => some (execLkred xd xa xb index)
  | .lkskadd xd xa index => some (execLkskadd xd xa index)
  | .lkwait xd xa xb => some (execLkwait xd xa xb)
  | .lkstat xd xa => some (execLkstat xd xa)
  | .syarr xd index rel => some (execSyarr xd index rel)
  | .sywait xd xa index acq => some (execSywait xd xa index acq)
  | .sybar xd index rel acq => some (execSybar xd index rel acq)
  | .sybc xd xa xc index sel rel acq => some (execSybc xd xa xc index sel rel acq)
  | .syred xd xa xc index sel u rel acq => some (execSyred xd xa xc index sel u rel acq)
  | .sygen xd index => some (execSygen xd index)
  | .rzinit xa xb => some (execRzinit xa xb)
  | .rzarr xa rel scope => some (execRzarr xa rel scope)
  | .rzwait xd xa xb acq scope => some (execRzwait xd xa xb acq scope)
  | .acq scope => some (execAcq scope)
  | .rel scope => some (execRel scope)
  | .fence => some execFence
  | .qfence imm => some (execQfence imm)
  | .hint k payload => some (execHint k payload)
  | _ => none

/-- How an instruction ends in a state. -/
inductive Ending where
  | retires
  | waits
  | entry (x : Exc)
deriving DecidableEq, Repr

/-- The state in which the record of an entry is seen: under a handler table whose records are kept (R471). -/
def State.probe (s : State) : State := { s with core := { s.core with dfltTable := true, fw := [] } }

/-- How a meaning ends in a state. -/
def endingOf (f : State → Host.Outcome State Fault Refusal) (s : State) : Ending :=
  match f s.probe with
  | .next u => match u.core.fw with
    | x :: _ => .entry x
    | [] => if u.core.waiting.isSome then .waits else .retires
  | _ => .retires

/-- The causes taken after retire (R311). -/
def Exc.afterRetire (x : Exc) : Bool := (x.cls == 9 && decide (x.detail ≤ 1)) || (x.cls == 10 && x.detail == 0) || x.cls == 14

/-- The FP exceptions, which follow at retire (R54, R165, R180). -/
def Exc.fpException (x : Exc) : Bool := x.cls == 5 && decide (1 ≤ x.detail) && decide (x.detail ≤ 5)

/-- An instruction of the strand in focus is at the head: the strand runs, no cause is due before it, no handler's action is under way, and
its program is not parked. -/
def State.atHead (s : State) : Bool :=
  s.core.active && s.asyncCause.isNone && s.core.fw.isEmpty && !(s.core.isParked && !s.core.supervisor)

/-- PRECISE_FAULT_ENTRY (R356): the instruction at the head takes the fault that the event names, if it has that one: its fetch fault, its own
precise fault, or the class-11 fault of its fetched line or of a source that holds an uncorrectable error (R329). Its own faults come before
those of its sources, but for FP exceptions and causes after retire. Otherwise nothing happens. -/
def execPreciseFaultEntry (cls detail : Nat) (faddr finfo : Word) (s : State) : Host.Outcome State Fault Refusal :=
  let x : Exc := ⟨cls, detail, faddr, finfo⟩
  if !s.atHead then .next s
  else match s.fetch with
  | .error y => if x = y then .next (s.enter x) else .next s
  | .ok (t, i) =>
    match meaning i with
    | none => .next s
    | some f =>
      if x = ⟨11, 1, s.core.pc, 0#64⟩ ∧ s.core.waiting = none then .next (t.enter x)
      else
        let source := x ∈ (t.reading i).faults t (opcodeOf i)
        match endingOf f t with
        | .waits => .next s
        | .retires => if source then .next (t.enter x) else .next s
        | .entry y =>
          if x = y ∧ y.afterRetire = false then f t
          else if source ∧ (y.afterRetire || y.fpException) = true then .next (t.enter x)
          else .next s

/-- AFTER_RETIRE_ENTRY (R311): the instruction at the head retires, and its cause, which the event names, is taken before the next one. -/
def execAfterRetireEntry (cls detail : Nat) (faddr finfo : Word) (s : State) : Host.Outcome State Fault Refusal :=
  if !s.atHead then .next s
  else match s.fetch with
  | .error _ => .next s
  | .ok (t, i) =>
    match meaning i with
    | none => .next s
    | some f => match endingOf f t with
      | .entry y => if y = ⟨cls, detail, faddr, finfo⟩ ∧ y.afterRetire = true then f t else .next s
      | _ => .next s

end Sys2Proof.Machine
end

