-- ==== Sys2Proof/Machine/Issue.lean ====
section
/-! DEFINITION. Instructions that issue before an older one has retired (R347, R350, R354, R358): what the strand's younger instructions may do
while the oldest waits. Values follow program order but for what an instruction reads when it issues, so only the instructions that read memory,
a channel, a queue, a sketch or the clock take part: each leaves its result with the core until it is the oldest. -/

namespace Sys2Proof.Machine

/-- How an instruction takes part while an older one waits: nothing issues behind it; it computes from registers; it reads, in the front end or
in an engine, when it issues; it acts when it is the oldest, and under `fence` no younger load issues before (R218, R290, R296, R317, R348,
R354). -/
inductive Passing where
  | stops
  | runs
  | reads (engine : Bool)
  | acts (fence : Bool)
deriving DecidableEq, Repr

/-- The copy channel and the field that a special register's number names (R23). -/
def copyField (sreg : BitVec 12) : Option (Nat × Nat) :=
  let n := sreg.toNat
  if 0x200 ≤ n ∧ n < 0x280 then some ((n - 0x200) / 16, n % 16) else none

/-- A special register that MTS and MFS use in program order (R322, R323): quant registers and copy shadows; for MFS also the shape registers,
s.seed, s.sytmo and what the launch fixes. -/
def inOrder (write : Bool) (sreg : BitVec 12) : Bool :=
  let n := sreg.toNat
  (decide (0x110 ≤ n) && decide (n < 0x120)) || (copyField sreg).isSome ||
    (!write && (decide (1 ≤ n && n < 0x10) || n == 0x11 || n == 0x17 || n == 0x20 || n == 0x21 || (decide (0x100 ≤ n) && decide (n < 0x108))))

/-- How each instruction takes part. A serialising instruction lets none dispatch behind it (R317), HALT and PREACK too, though R354 has younger
instructions dispatch while one of its list waits at the head (DEDUCED, log entry 70). -/
def passingOf (i : Instr) : Passing :=
  match i with
  | .ld .. | .lda .. | .lkstat .. | .sygen .. | .msgwait .. => .reads false
  | .tld .. | .tldx .. | .cpystat .. | .gqstat .. | .skstat .. | .skqry .. => .reads true
  | .mfs _ sreg =>
    if sreg = 0#12 ∨ (copyField sreg).map Prod.snd = some 8 then .reads false else if inOrder false sreg then .runs else .stops
  | .mts _ sreg => if inOrder true sreg then .runs else .stops
  | .acq .. | .fence | .skfence => .acts true
  | .aadd _ _ _ _ _ acq _ | .aand _ _ _ _ _ acq _ | .aor _ _ _ _ _ acq _ | .axor _ _ _ _ _ acq _ | .aswp _ _ _ _ _ acq _
  | .amin _ _ _ _ _ acq _ _ | .amax _ _ _ _ _ acq _ _ | .acas _ _ _ _ _ _ acq _ => .acts acq
  | .gqpop _ _ _ _ acq _ | .gqpops _ _ _ acq _ | .msgrecv _ _ acq _ | .rzwait _ _ _ acq _ | .sywait _ _ _ acq | .sybar _ _ _ acq
  | .sybc _ _ _ _ _ _ acq | .syred _ _ _ _ _ _ _ acq => .acts acq
  | .st .. | .stl .. | .red .. | .tst .. | .tstx .. | .cpygo .. | .cpycancel .. | .cpywait .. | .lkred .. | .lkskadd .. | .lkwait ..
  | .syarr .. | .rzinit .. | .rzarr .. | .rel .. | .qfence .. | .skinit .. | .skzero .. | .skupd .. | .skadd .. | .skmul ..
  | .gqpush .. | .msgsend .. | .sleep .. | .objdecl .. | .objdrop .. | .stmap .. | .stmapAperture .. | .stunmap .. | .stflush .. =>
    .acts false
  | .halt | .trap .. | .syscall .. | .eret | .ctxmark | .preack .. | .ifence | .mtsSeed .. | .mtsAsid .. | .mtsTvec .. | .mtsPs .. => .stops
  | i => if (meaning i).isSome then .runs else .stops

/-- What an instruction writes: 0 a scalar register, 1 a tile, 2 an accumulator, 3 a pin, 4 a quant register by AMAX or MTS. -/
def resultsOf (i : Instr) : List (Nat × Nat) :=
  let x (r : BitVec 6) : Nat × Nat := (0, r.toNat)
  let t (r : BitVec 5) : Nat × Nat := (1, r.toNat)
  let a (r : BitVec 3) : Nat × Nat := (2, r.toNat)
  let q (r : BitVec 4) : Nat × Nat := (4, r.toNat)
  match i with
  | .add xd .. | .sub xd .. | .mul xd .. | .mulh xd .. | .div xd .. | .rem xd .. | .and xd .. | .or xd .. | .xor xd .. | .andn xd ..
  | .shl xd .. | .shr xd .. | .sar xd .. | .min xd .. | .max xd .. | .cmp xd .. | .addi xd .. | .muli xd .. | .andi xd .. | .ori xd ..
  | .xori xd .. | .shli xd .. | .shri xd .. | .sari xd .. | .cmpi xd .. | .movi xd _ | .clz xd _ | .ctz xd _ | .popc xd _ | .sext xd ..
  | .zext xd .. | .sel xd .. | .fadd xd .. | .fsub xd .. | .fmul xd .. | .ffma xd .. | .fdiv xd .. | .fsqrt xd .. | .fmin xd ..
  | .fmax xd .. | .fcmp xd .. | .fcvt xd .. => [x xd]
  | .loop xa .. => [x xa]
  | .call .. | .callr _ => [(0, 62)]
  | .ld xd .. | .lda xd .. | .lkstat xd _ | .sygen xd _ | .msgwait xd | .cpystat xd _ | .gqstat xd .. | .skstat xd .. | .mfs xd _ => [x xd]
  | .aadd xd .. | .aand xd .. | .aor xd .. | .axor xd .. | .aswp xd .. | .amin xd .. | .amax xd .. | .acas xd .. => [x xd]
  | .cpygo xd _ | .cpycancel xd _ | .cpywait xd .. | .lkred xd .. | .lkskadd xd .. | .lkwait xd .. | .sleep xd _ => [x xd]
  | .syarr xd .. | .sywait xd .. | .sybar xd .. | .rzwait xd .. => [x xd]
  | .sybc xd _ xc .. | .syred xd _ xc .. => [x xd, x xc]
  | .gqpop xd td .. | .gqpops xd td .. | .msgrecv xd td .. => [x xd, t td]
  | .tld td .. | .tldx td .. | .skqry td .. | .tzero td .. | .tfill td .. | .tmov td _ | .tmovs td .. | .treshape td .. => [t td]
  | .tmovx _ xs _ | .tshr _ xs => [x xs]
  | .mpin pin .. => [(3, pin.toNat)]
  | .mma acc .. | .mmat acc .. | .mopa acc .. | .maccld acc .. | .mzero acc => [a acc]
  | .mdrain td _ _ _ quant _ _ _ amax => t td :: if amax then [q quant] else []
  | .wdrain td .. => [t td]
  | .vcvt td _ _ tc _ fmt quant _ _ amax => (t td :: if fmt = 7#5 then [t tc] else []) ++ if amax then [q quant] else []
  | .vamax _ _ quant => [q quant]
  | .mts _ sreg => if 0x110 ≤ sreg.toNat ∧ sreg.toNat < 0x120 then [(4, sreg.toNat - 0x110)] else []
  | .vadd td .. | .vsub td .. | .vmul td .. | .vdiv td .. | .vfma td .. | .vmin td .. | .vmax td .. | .vand td .. | .vor td .. | .vxor td ..
  | .vshl td .. | .vshr td .. | .vcmp td .. | .vsel td .. | .vclamp td .. | .vabs td _ | .vneg td _ | .vexp2 td _ | .vlog2 td _ | .vrcp td ..
  | .vrsq td _ | .vsqrt td .. | .vtanh td _ | .vsigm td _ | .vgelu td _ | .vrand td .. | .viota td .. | .vrsum td .. | .vrmax td ..
  | .vrmin td .. | .vcsum td .. | .vcmax td .. | .vcmin td .. | .vtrans td _ | .vbcast td .. | .vshuf td .. | .vscan td .. | .vrdot td .. =>
    [t td]
  | _ => []

/-! ### Units, pools and ranges -/

/-- The unit that executes an instruction (R348), numbered as s.finfo numbers them (R130): 0 the front end, 1 the tile memory unit, 2 and 3 the
matrix engines (R155), 4 the vector engine, 5 the copy engine, 6 the post port. -/
def engineOf (i : Instr) : Nat :=
  match i with
  | .mpin pin _ _ | .wdrain _ pin _ => 2 + pin.toNat % 2
  | .mma acc .. | .mmat acc .. | .mopa acc .. | .maccld acc .. | .mzero acc | .mdrain _ acc .. => 2 + acc.toNat % 2
  | .cpygo .. | .cpystat .. | .cpycancel .. => 5
  | .tshr .. => 0
  | i =>
    let op := (opcodeOf i).toNat
    if 0x60 ≤ op ∧ op ≤ 0x63 then 1
    else if (0x64 ≤ op ∧ op ≤ 0x6A) ∨ (0x80 ≤ op ∧ op < 0xB0) then 4
    else if (0xB0 ≤ op ∧ op ≤ 0xC6 ∧ op ≠ 0xC5) ∨ op = 0xD0 ∨ op = 0xD1 then 6
    else 0

/-- The entries of an engine's queue (R350). -/
def queueEntries (e : Nat) : Nat := if e = 5 then 8 else 16

/-- The pool of a register that an instruction writes (R344): scalar registers, tiles, the banks and the pin slots of each matrix engine. -/
def poolOf (r : Nat × Nat) : Option Nat :=
  match r.1 with
  | 0 => if r.2 = 0 then none else some 0
  | 1 => some 1
  | 2 => some (2 + r.2 % 2)
  | 3 => some (4 + r.2 % 2)
  | _ => none

/-- The registers of a pool beyond the architectural ones (R344): each unretired write holds one (R345). -/
def Core.poolRoom (c : Core) (pool : Nat) : Nat :=
  match pool with
  | 0 => 128 - 63
  | 1 => if c.kind = .badger then 48 - 32 else 80 - 32
  | 2 => 6 - 4
  | 3 => 6 - 4
  | _ => 3 - 2

/-- The entries of the reorder buffer (R344). -/
def Core.issueWindow (c : Core) : Nat := if c.kind = .command then 64 else 192

/-- An instruction holds a slot of the scalar memory port until its value returns (R346 step 8, R347). -/
def holdsSlot : Instr → Bool
  | .ld .. | .lda .. | .objdecl .. | .objdrop .. => true
  | .aadd .. | .amin .. | .amax .. | .aand .. | .aor .. | .axor .. | .aswp .. | .acas .. => true
  | _ => false

def isAtomic : Instr → Bool
  | .aadd .. | .aand .. | .aor .. | .axor .. | .aswp .. | .amin .. | .amax .. | .acas .. => true
  | _ => false

/-- The instructions that read memory for the strand (R144, R219, R277, R301). -/
def isLoad (i : Instr) : Bool :=
  isAtomic i || match i with
    | .ld .. | .lda .. | .tld .. | .tldx .. | .skqry .. | .skstat .. | .objdecl .. | .objdrop .. | .rzwait .. => true
    | _ => false

/-- The bounding box of the object of an OBJDECL or OBJDROP; the whole address space until it can read its descriptor (R143, R302). -/
def State.objectRange (s : State) (op : BitVec 8) (xa : BitVec 6) : Nat × Nat :=
  match s.descriptorChecks op xa with
  | .ok d => match objectOf d 0#16 with
    | some o => o.box
    | none => (0, 2 ^ 52)
  | .error _ => (0, 2 ^ 52)

/-- The ranges of a store-type instruction, from the scalar values it has at dispatch (R116, R143, R234, R255, R277, R302, R306); a window
that STMAP maps is its range (DEDUCED, log entry 40). -/
def State.orderRanges (s : State) (i : Instr) : List (Nat × Nat) :=
  let c := s.core
  let from' (a : Word) (n : Nat) : List (Nat × Nat) := [(a.toNat, a.toNat + n)]
  match i with
  | .st _ xa imm size | .stl _ xa imm size _ => from' (c.ea xa imm) (sizeBytes size)
  | .aadd _ xa _ size .. | .aand _ xa _ size .. | .aor _ xa _ size .. | .axor _ xa _ size .. | .aswp _ xa _ size .. | .amin _ xa _ size ..
  | .amax _ xa _ size .. | .acas _ xa _ _ size .. => from' (c.xr xa) (sizeBytes size)
  | .red xa _ _ _ type => from' (c.xr xa) (redBytes type.toNat)
  | .rzinit xa _ | .rzarr xa .. => from' (c.xr xa) 16
  | .tst _ shape _ xbase xstride _ imm =>
    let r := c.stridedRows shape xbase xstride imm
    [(r.lo.toNat, r.hi.toNat)]
  | .tstx _ _ _ xbase xpb _ imm =>
    let base := c.rowBase xbase imm
    [(base.toNat, (base + (c.pitch xpb * c.tableRows xpb : Nat)).toNat)]
  | .cpygo _ index => [(c.snapshot (c.channel index.toNat)).dstBox]
  | .lkred _ xa xb _ => from' (c.xr xa) (4 * (c.xr xb).toNat)
  | .lkskadd _ xa _ => s.sketchRanges (c.xr xa).toNat
  | .skinit xa .. | .skzero xa | .skupd xa .. | .skadd xa _ | .skmul xa _ => from' (c.xr xa) 64
  | .objdecl xa => [s.objectRange 0x0B#8 xa]
  | .objdrop xa => [s.objectRange 0x0C#8 xa]
  | .stmap _ xa _ imm => from' (c.xr xa) (2 ^ (imm.extractLsb' 0 5).toNat)
  | .stmapAperture xa xb => from' (c.xr xa) ((c.xr xb).toNat * 2 ^ 18)
  | .stunmap index => [windowsBox (c.stash.window index.toNat).toList]
  | .stflush index _ => [windowsBox (c.stash.masked index)]
  | _ => []

/-- An instruction on windows or objects changes what an address names, and its range holds younger loads until it retires (R304-R306). -/
def remaps : Instr → Bool
  | .objdecl .. | .objdrop .. | .stmap .. | .stmapAperture .. | .stunmap .. | .stflush .. => true
  | _ => false

/-- The range of a sketch post. -/
def State.sketchPost (s : State) (i : Instr) : List (Nat × Nat) :=
  match i with
  | .skinit .. | .skzero .. | .skupd .. | .skadd .. | .skmul .. => s.orderRanges i
  | _ => []

/-! ### What stands ahead -/

/-- What stands ahead of an instruction that would issue early: the machine as the older ones leave it, and the results that are not known yet
(by the kinds of `resultsOf`, and 5 for a tile's record); the channels whose CPYGO or CPYCANCEL has not retired (8 for a GQPUSH); a fence; a
load that has not read; the sketch posts that have not retired; and what the unretired ones hold: entries of the reorder buffer, engine
instructions among them, entries of the engines' queues, slots of the scalar memory port, entries of the range table, pool registers. -/
structure Ahead where
  ghost : State
  poison : List (Nat × Nat) := []
  chans : List Nat := []
  loads : Bool := false
  unread : Bool := false
  posts : List (Nat × Nat) := []
  entries : Nat := 0
  engines : Nat := 0
  queued : List Nat := []
  slots : Nat := 0
  ranges : Nat := 0
  dests : List Nat := []
deriving DecidableEq, Repr

/-- The files of a source by the kinds of `resultsOf`. -/
def fileOf (f : Nat × Nat) : Nat × Nat := (if f.1 = 5 then 2 else if f.1 = 6 then 3 else 1, f.2)

/-- The quant registers that an engine instruction reads: those of its source tiles and pins, and its own. -/
def State.quantsOf (s : State) (i : Instr) : List (Nat × Nat) :=
  let sources := (s.reading i).files.filterMap fun f =>
    if f.1 = 5 then none else if f.1 = 6 then some (s.core.wr (BitVec.ofNat 2 f.2)).tile.quant else some (s.core.tr (BitVec.ofNat 5 f.2)).quant
  let own := match i with
    | .mdrain _ _ _ _ quant .. | .vcvt _ _ _ _ _ _ quant .. => [quant]
    | _ => []
  (sources ++ own).map fun q => (4, q.toNat)

/-- A scalar source is not known: the instruction does not dispatch, nor does any behind it (R92, R346, R355); nor is TSHR's tile record
(R141), or MFS's quant register (R53). -/
def Ahead.blocks (p : Ahead) (i : Instr) : Bool :=
  ((p.ghost.reading i).regs.any fun r => p.poison.contains (0, r.toNat)) ||
    match i with
    | .tshr ta _ => p.poison.contains (5, ta.toNat)
    | .mfs _ sreg => p.poison.contains (4, sreg.toNat - 0x110) && decide (0x110 ≤ sreg.toNat)
    | _ => false

/-- A tile, bank, pin or quant register that an engine instruction reads is not known: it waits in its queue (R350). -/
def Ahead.lacks (p : Ahead) (i : Instr) : Bool :=
  engineOf i != 0 && ((p.ghost.reading i).files.any (fun f => p.poison.contains (fileOf f)) ||
    (decide (2 ≤ engineOf i) && decide (engineOf i ≤ 4) && (p.ghost.quantsOf i).any fun q => p.poison.contains q))

/-- The record of a source tile is not known. -/
def Ahead.unrecorded (p : Ahead) (i : Instr) : Bool := (p.ghost.reading i).files.any fun f => p.poison.contains (5, f.2) && (fileOf f).1 == 1

/-- How many entries of the reorder buffer an instruction takes: NOP and hints none (R343). -/
def entriesOf : Instr → Nat
  | .nop => 0
  | .hint .. => 0
  | _ => 1

/-- An instruction dispatches (R346, steps 3 to 8). -/
def Ahead.dispatches (p : Ahead) (i : Instr) : Bool :=
  let c := p.ghost.core
  let e := engineOf i
  let pools := (resultsOf i).filterMap poolOf
  decide (p.entries + entriesOf i ≤ c.issueWindow) && (e == 0 || (decide (p.engines < 48) && decide (p.queued.count e < queueEntries e))) &&
    (pools.all fun k => decide (p.dests.count k + pools.count k ≤ c.poolRoom k)) &&
    ((p.ghost.orderRanges i).all fun r => decide (r.2 ≤ r.1) || decide (p.ranges < if c.kind = .command then 16 else 64)) &&
    (!holdsSlot i || decide (p.slots < 8))

/-- An instruction has been dispatched. -/
def Ahead.enters (p : Ahead) (i : Instr) : Ahead :=
  { p with
    entries := p.entries + entriesOf i
    engines := p.engines + if engineOf i = 0 then 0 else 1
    ranges := p.ranges + if (p.ghost.orderRanges i).any (fun r => decide (r.1 < r.2)) then 1 else 0
    dests := (resultsOf i).filterMap poolOf ++ p.dests }

/-- How many instructions a CMPSK that has led from a slot to a slot annuls: each takes an entry (R111, R343). -/
def annulled (i : Instr) (pc after : Word) : Nat :=
  match i with
  | .cmpsk _ _ _ n | .cmpski _ _ n _ => if after = nextPc pc then 0 else n.toNat
  | _ => 0

/-- Behind an instruction that leaves the machine as `u`: what it writes is known. -/
def Ahead.ran (p : Ahead) (i : Instr) (u : State) : Ahead :=
  let known := resultsOf i
  let q := p.enters i
  { q with
    ghost := u
    entries := q.entries + annulled i p.ghost.core.pc u.core.pc
    poison := p.poison.filter fun r => !known.contains r && !(r.1 == 5 && known.contains (1, r.2)) }

/-- The tile that an instruction which has not read yet is to write, as far as its record is known at dispatch (R127). -/
def Core.shapeOf (c : Core) (i : Instr) : Core :=
  match i with
  | .tld td shape fmt _ _ _ quant _ | .tldx td shape fmt _ _ _ quant _ => c.setT td ⟨c.hRows shape, c.hRowbytes shape, fmt, quant, []⟩
  | .skqry td _ _ _ _ shape => c.setT td ⟨c.hRows shape, c.hRowbytes shape, 2#5, 0#4, []⟩
  | .msgrecv _ td _ _ => c.setT td (payloadTile [])
  | _ => c

/-- Behind an instruction whose effect is still to come. -/
def Ahead.skip (p : Ahead) (i : Instr) : Ahead :=
  { p.enters i with ghost := { p.ghost.retire with core := { (p.ghost.retire.core.shapeOf i) with early := p.ghost.core.early } } }

/-- The results of an instruction are not known yet, nor the records of its tiles unless `records`. -/
def Ahead.unknown (p : Ahead) (i : Instr) (records : Bool) : Ahead :=
  let tiles := (resultsOf i).filterMap fun r => if r.1 = 1 then some (5, r.2) else none
  { p with poison := resultsOf i ++ if records then p.poison.filter (fun r => !tiles.contains r) else tiles ++ p.poison }

/-- An instruction that has not issued holds its entry of its engine's queue (R350). -/
def Ahead.queue (p : Ahead) (i : Instr) : Ahead := if engineOf i = 0 then p else { p with queued := engineOf i :: p.queued }

/-- Ranges of an instruction that has not performed hold younger loads (R349). -/
def State.holdRanges (s : State) (tile : Bool) (rs : List (Nat × Nat)) : State :=
  { s with core := { s.core with drain := s.core.drain ++ rs.map fun r => ⟨tile, r.1, r.2, none, []⟩ } }

def Ahead.holdRange (p : Ahead) (i : Instr) : Ahead := { p with ghost := p.ghost.holdRanges (engineOf i == 1) (p.ghost.orderRanges i) }

/-- Behind an instruction that acts only when it is the oldest: its channel, its fence, its post. -/
def Ahead.behindActing (p : Ahead) (s : State) (i : Instr) (fence : Bool) : Ahead :=
  let chans := match i with
    | .cpygo _ n | .cpycancel _ n => n.toNat :: p.chans
    | .gqpush .. => 8 :: p.chans
    | _ => p.chans
  { p with chans := chans, loads := p.loads || fence, posts := s.sketchPost i ++ p.posts }

/-- An instruction that acts as the oldest has issued nevertheless: it has its sources, and what R248, R254, R219 and R147 make it wait for. -/
def Ahead.issued (p : Ahead) (i : Instr) (waits : Bool) : Bool :=
  let room (n : Nat) : Bool := p.ghost.bufferRoom n
  let c := p.ghost.core
  !p.lacks i && match i with
    | .gqpop .. | .gqpops .. | .msgrecv .. => !waits
    | .gqpush _ ta .. => room (c.tr ta).size
    | .skupd _ ta _ tk sel => room ((c.tr ta).size + if sel = 1#4 then (c.tr tk).size else 0)
    | .tst .. | .tstx .. => decide ((c.drain.filter DrainEntry.tile).length < 4)
    | _ => true

/-- Behind an instruction: none where nothing more may issue. -/
def Ahead.pass (p : Ahead) (i : Instr) (f : State → Host.Outcome State Fault Refusal) : Option Ahead :=
  if p.blocks i || !p.dispatches i then none
  else
    let ends := endingOf f p.ghost
    let after := match f p.ghost with
      | .next u => u
      | _ => p.ghost
    match passingOf i with
    | .stops => none
    | .reads _ =>
      let q := ((p.skip i).unknown i true).queue i
      some { q with unread := q.unread || isLoad i, slots := q.slots + if holdsSlot i then 1 else 0 }
    | .runs =>
      if p.lacks i then
        some ((if ends = .retires then (p.ran i after).unknown i (!p.unrecorded i) else (p.skip i).unknown i false).queue i)
      else match ends with
        | .retires => some (p.ran i after)
        | _ => if engineOf i = 0 then none else some ((p.skip i).unknown i false)
    | .acts fence =>
      if !p.lacks i && !isAtomic i && ends = .retires then
        let q := p.ran i after
        some ((if remaps i then { q with ghost := after.holdRanges false (p.ghost.orderRanges i) } else q).behindActing p.ghost i fence)
      else
        let q := ((p.holdRange i).skip i).unknown i (match i with | .gqpop .. => false | .gqpops .. => false | _ => true)
        let q := if p.issued i (ends == .waits) then q else q.queue i
        let reads := !remaps i || p.ghost.orderRanges i == [(0, 2 ^ 52)]
        some ({ q with unread := q.unread || (isLoad i && reads), slots := q.slots + if holdsSlot i && reads then 1 else 0 }.behindActing
          p.ghost i fence)

/-! ### Reading early -/

/-- The strand's machine with the registers that an instruction reads ahead of its turn. -/
def State.withRegisters (s ghost : State) : State :=
  { s with core := { s.core with
      pc := ghost.core.pc, x := ghost.core.x, t := ghost.core.t, a := ghost.core.a, w := ghost.core.w, h := ghost.core.h, q := ghost.core.q,
      waiting := none, waitFrom := none, early := [] } }

/-- What an instruction does when it reads: LDA's acquire comes after it (R117). -/
def readOf (i : Instr) (f : State → Host.Outcome State Fault Refusal) : State → Host.Outcome State Fault Refusal :=
  match i with
  | .lda xd xa imm size sx scope => fun s => s.finish (s.ldaRead xd xa imm size sx scope)
  | _ => f

/-- Whether an instruction that reads when it issues may issue (R116, R145, R221, R241, R250, R350): it has dispatched and its sources are
known; no older range, no fence, no older post on its record, no older instruction of its channel or, at the post port, one that has not issued,
stands before it; and it waits for nothing. -/
def Ahead.ready (p : Ahead) (s : State) (i : Instr) (f : State → Host.Outcome State Fault Refusal) : Bool :=
  let held := match i with
    | .ld .. | .lda .. | .tld .. | .tldx .. => p.loads
    | .skqry _ xa .. | .skstat _ xa _ =>
      let a := (p.ghost.core.xr xa).toNat
      p.loads || p.posts.any fun r => overlap r (a, a + 64)
    | .cpystat _ n => p.chans.contains n.toNat
    | .gqstat _ _ _ sel => sel = 0#4 && p.chans.contains 8
    | _ => false
  !p.blocks i && p.dispatches i && !p.lacks i && !p.unrecorded i && !held && !(engineOf i == 6 && p.queued.contains 6) &&
    endingOf f p.ghost == .retires && endingOf f (s.withRegisters p.ghost) == .retires

/-- An early result: what the registers hold when the instruction has read; LDA's acquire is still to come. -/
def earlyOf (i : Instr) (after : Nat) (u : State) : Early :=
  { after := after
    done := true
    acq := match i with
      | .lda _ _ _ _ _ scope => some scope.toNat
      | _ => none
    xs := ((resultsOf i).filter fun r => r.1 == 0).map fun r => (BitVec.ofNat 6 r.2, u.core.xr (BitVec.ofNat 6 r.2))
    ts := ((resultsOf i).filter fun r => r.1 == 1).map fun r => (BitVec.ofNat 5 r.2, u.core.tr (BitVec.ofNat 5 r.2)) }

/-- An instruction has read: its result stays with the core, and what its read left in the stash and the caches stands. -/
def State.readEarly (s u : State) (e : Early) : State :=
  { u with core := { s.core with stash := u.core.stash, passed := u.core.passed, early := s.core.early ++ [e] } }

/-- The acquire that an instruction performs once it has read or taken its entry, before it is the oldest (R248, R254, R290, R295): at the
head an instruction of R354's list performs its own. -/
def acquireOf (i : Instr) : Option Nat :=
  match i with
  | .acq scope => some scope.toNat
  | .gqpop _ _ _ _ acq scope | .gqpops _ _ _ acq scope | .msgrecv _ _ acq scope => if acq then some scope.toNat else none
  | _ => none

/-- An acquire performs early (R290). ACQ is then done; a pop takes its entry when it retires, and makes its acquire again (log entry 40). -/
def State.acquireEarly (s : State) (i : Instr) (after scope : Nat) : State :=
  let t := s.acquireAt scope
  { t with core := { t.core with early := t.core.early ++ [{ after := after, done := i == .acq (BitVec.ofNat 2 scope), acq := none, xs := [], ts := [] }] } }

/-- The acquire of an LDA that has read performs (R117, R290). -/
def State.settle (s : State) (e : Early) : State :=
  match e.acq with
  | none => s
  | some scope =>
    let t := s.acquireAt scope
    { t with core := { t.core with early := t.core.early.map fun x => if x = e then { x with acq := none } else x } }

/-- What an instruction does early from its place behind older ones: it reads, and an LDA behind no load that has not read acquires at once;
or its acquire performs, which waits for the older loads (R290). -/
def State.candidate (s : State) (engine : Bool) (p : Ahead) (after : Nat) (i : Instr) (f : State → Host.Outcome State Fault Refusal) :
    Option (Nat × State) :=
  if after = 0 then none
  else match passingOf i, acquireOf i with
  | .reads e, _ =>
    if e = engine ∧ p.ready s i f = true then
      match readOf i f (s.withRegisters p.ghost) with
      | .next u =>
        let r := earlyOf i after u
        let t := s.readEarly u r
        some (engineOf i, if p.unread then t else t.settle r)
      | _ => none
    else none
  | .acts _, some scope =>
    if (engineOf i != 0) = engine ∧ p.ready s i f = true ∧ p.loads = false ∧ p.unread = false then
      some (engineOf i, s.acquireEarly i after scope)
    else none
  | _, _ => none

/-- What the instructions behind the oldest one may do early, each with its unit, in program order: `after` older instructions have not
retired. The flow is followed as far as instructions dispatch (R346), through at most 2^20 of them. -/
def State.issueFrom (s : State) (engine : Bool) (p : Ahead) (after : Nat) : Nat → List (Nat × State)
  | 0 => []
  | fuel + 1 =>
    match p.ghost.fetch with
    | .error _ => []
    | .ok (g, i) =>
      let p := { p with ghost := g }
      match meaning i, s.core.early.find? (fun e => e.after == after) with
      | none, _ => []
      | some f, some e =>
        if e.done then
          let own := if !engine && e.acq.isSome && !p.unread && !p.loads then [(0, s.settle e)] else []
          let q := p.ran i (g.takeEarly e)
          if p.dispatches i then own ++ s.issueFrom engine { q with loads := q.loads || e.acq.isSome } (after + 1) fuel else []
        else match p.pass i f with
          | some q => s.issueFrom engine { q with loads := p.loads } (after + 1) fuel
          | none => []
      | some f, none =>
        (s.candidate engine p after i f).toList ++ match p.pass i f with
          | some q => s.issueFrom engine q (after + 1) fuel
          | none => []

/-- The first of each unit (R350). -/
def firstOfEach : List (Nat × State) → List Nat → List State
  | [], _ => []
  | (e, t) :: rest, seen => if seen.contains e then firstOfEach rest seen else t :: firstOfEach rest (e :: seen)

/-- The machine ahead of the strand's oldest instruction. -/
def State.ahead (s : State) : Ahead :=
  { ghost := { s with core := { s.core with waiting := none, waitFrom := none, early := [] } }, ranges := s.rangesHeld }

/-- What may be done early now. -/
def State.issuable (s : State) (engine : Bool) : List State :=
  if s.atHead then firstOfEach (s.issueFrom engine s.ahead 0 1048576) [] else []

/-- One of them happens: each engine issues its oldest ready instruction (R350), and which engine does so next is a free choice (DESIGN CHOICE, log
entry 40). -/
def State.issueEarly (s : State) (engine : Bool) : State :=
  match s.issuable engine with
  | [] => s
  | [t] => t
  | t :: ts => (t :: ts).getD (Config.choice s.draws % (ts.length + 1)) t

/-- ENGINE_ISSUE (R350): the oldest ready instruction of an engine behind the strand's oldest one issues. The others' values follow program
order (R174, R181), so their issue is a moment in time only. -/
def execEngineIssue (s : State) : Host.Outcome State Fault Refusal := .next (s.issueEarly true)

/-- VALUE_RETURN (R347): the value of the oldest load or front-end read behind the strand's oldest instruction that may issue returns, or an
acquire performs whose older loads have read (R290). The oldest instruction's own step writes its value. -/
def execValueReturn (s : State) : Host.Outcome State Fault Refusal := .next (s.issueEarly false)

end Sys2Proof.Machine
end

