-- ==== Sys2Proof/Machine/Dispatch.lean ====
section
/-! DEFINITION. The dispatch: one arm per row of the opcode table. -/

namespace Sys2Proof.Machine

def exec (i : Instr) (s : State) : Host.Outcome State Fault Refusal :=
  match i with
  | .nop => Sys2Proof.Machine.execNop s
  | .halt => Sys2Proof.Machine.execHalt s
  | .trap imm => Sys2Proof.Machine.execTrap imm s
  | .syscall imm => Sys2Proof.Machine.execSyscall imm s
  | .eret => Sys2Proof.Machine.execEret s
  | .mfs xd sreg => Sys2Proof.Machine.execMfs xd sreg s
  | .mts xa sreg => Sys2Proof.Machine.execMts xa sreg s
  | .mtsSeed xa => Sys2Proof.Machine.execMtsSeed xa s
  | .mtsAsid xa => Sys2Proof.Machine.execMtsAsid xa s
  | .mtsTvec xa => Sys2Proof.Machine.execMtsTvec xa s
  | .mtsPs xa => Sys2Proof.Machine.execMtsPs xa s
  | .mtsShape h xa => Sys2Proof.Machine.execMtsShape h xa s
  | .ifence => Sys2Proof.Machine.execIfence s
  | .ctxmark => Sys2Proof.Machine.execCtxmark s
  | .sleep xd xa => Sys2Proof.Machine.execSleep xd xa s
  | .preack xa => Sys2Proof.Machine.execPreack xa s
  | .objdecl xa => Sys2Proof.Machine.execObjdecl xa s
  | .objdrop xa => Sys2Proof.Machine.execObjdrop xa s
  | .stmap index xa xb imm => Sys2Proof.Machine.execStmap index xa xb imm s
  | .stmapAperture xa xb => Sys2Proof.Machine.execStmapAperture xa xb s
  | .stunmap index => Sys2Proof.Machine.execStunmap index s
  | .stflush index sel => Sys2Proof.Machine.execStflush index sel s
  | .add xd xa xb => Sys2Proof.Machine.execAdd xd xa xb s
  | .sub xd xa xb => Sys2Proof.Machine.execSub xd xa xb s
  | .mul xd xa xb => Sys2Proof.Machine.execMul xd xa xb s
  | .mulh xd xa xb u => Sys2Proof.Machine.execMulh xd xa xb u s
  | .div xd xa xb u => Sys2Proof.Machine.execDiv xd xa xb u s
  | .rem xd xa xb u => Sys2Proof.Machine.execRem xd xa xb u s
  | .and xd xa xb => Sys2Proof.Machine.execAnd xd xa xb s
  | .or xd xa xb => Sys2Proof.Machine.execOr xd xa xb s
  | .xor xd xa xb => Sys2Proof.Machine.execXor xd xa xb s
  | .andn xd xa xb => Sys2Proof.Machine.execAndn xd xa xb s
  | .shl xd xa xb => Sys2Proof.Machine.execShl xd xa xb s
  | .shr xd xa xb => Sys2Proof.Machine.execShr xd xa xb s
  | .sar xd xa xb => Sys2Proof.Machine.execSar xd xa xb s
  | .min xd xa xb u => Sys2Proof.Machine.execMin xd xa xb u s
  | .max xd xa xb u => Sys2Proof.Machine.execMax xd xa xb u s
  | .cmp xd xa xb cond => Sys2Proof.Machine.execCmp xd xa xb cond s
  | .addi xd xa imm => Sys2Proof.Machine.execAddi xd xa imm s
  | .muli xd xa imm => Sys2Proof.Machine.execMuli xd xa imm s
  | .andi xd xa imm => Sys2Proof.Machine.execAndi xd xa imm s
  | .ori xd xa imm => Sys2Proof.Machine.execOri xd xa imm s
  | .xori xd xa imm => Sys2Proof.Machine.execXori xd xa imm s
  | .shli xd xa imm => Sys2Proof.Machine.execShli xd xa imm s
  | .shri xd xa imm => Sys2Proof.Machine.execShri xd xa imm s
  | .sari xd xa imm => Sys2Proof.Machine.execSari xd xa imm s
  | .cmpi xd xa imm cond => Sys2Proof.Machine.execCmpi xd xa imm cond s
  | .movi xd imm => Sys2Proof.Machine.execMovi xd imm s
  | .clz xd xa => Sys2Proof.Machine.execClz xd xa s
  | .ctz xd xa => Sys2Proof.Machine.execCtz xd xa s
  | .popc xd xa => Sys2Proof.Machine.execPopc xd xa s
  | .sext xd xa imm => Sys2Proof.Machine.execSext xd xa imm s
  | .zext xd xa imm => Sys2Proof.Machine.execZext xd xa imm s
  | .sel xd xa xb xc => Sys2Proof.Machine.execSel xd xa xb xc s
  | .fadd xd xa xb width rmode => Sys2Proof.Machine.execFadd xd xa xb width rmode s
  | .fsub xd xa xb width rmode => Sys2Proof.Machine.execFsub xd xa xb width rmode s
  | .fmul xd xa xb width rmode => Sys2Proof.Machine.execFmul xd xa xb width rmode s
  | .ffma xd xa xb xc width rmode => Sys2Proof.Machine.execFfma xd xa xb xc width rmode s
  | .fdiv xd xa xb width rmode => Sys2Proof.Machine.execFdiv xd xa xb width rmode s
  | .fsqrt xd xa width rmode => Sys2Proof.Machine.execFsqrt xd xa width rmode s
  | .fmin xd xa xb width => Sys2Proof.Machine.execFmin xd xa xb width s
  | .fmax xd xa xb width => Sys2Proof.Machine.execFmax xd xa xb width s
  | .fcmp xd xa xb width cond => Sys2Proof.Machine.execFcmp xd xa xb width cond s
  | .fcvt xd xa stype dtype rmode => Sys2Proof.Machine.execFcvt xd xa stype dtype rmode s
  | .br xa xb cond tslot imm => Sys2Proof.Machine.execBr xa xb cond tslot imm s
  | .bri xa k cond tslot imm => Sys2Proof.Machine.execBri xa k cond tslot imm s
  | .jmp tslot imm => Sys2Proof.Machine.execJmp tslot imm s
  | .jmpr xa => Sys2Proof.Machine.execJmpr xa s
  | .call tslot imm => Sys2Proof.Machine.execCall tslot imm s
  | .callr xa => Sys2Proof.Machine.execCallr xa s
  | .loop xa tslot imm => Sys2Proof.Machine.execLoop xa tslot imm s
  | .cmpsk xa xb cond skip => Sys2Proof.Machine.execCmpsk xa xb cond skip s
  | .cmpski xa cond skip imm => Sys2Proof.Machine.execCmpski xa cond skip imm s
  | .ld xd xa imm size sx => Sys2Proof.Machine.execLd xd xa imm size sx s
  | .st xd xa imm size => Sys2Proof.Machine.execSt xd xa imm size s
  | .lda xd xa imm size sx scope => Sys2Proof.Machine.execLda xd xa imm size sx scope s
  | .stl xd xa imm size scope => Sys2Proof.Machine.execStl xd xa imm size scope s
  | .aadd xd xa xb size scope acq rel => Sys2Proof.Machine.execAadd xd xa xb size scope acq rel s
  | .amin xd xa xb size scope acq rel u => Sys2Proof.Machine.execAmin xd xa xb size scope acq rel u s
  | .amax xd xa xb size scope acq rel u => Sys2Proof.Machine.execAmax xd xa xb size scope acq rel u s
  | .aand xd xa xb size scope acq rel => Sys2Proof.Machine.execAand xd xa xb size scope acq rel s
  | .aor xd xa xb size scope acq rel => Sys2Proof.Machine.execAor xd xa xb size scope acq rel s
  | .axor xd xa xb size scope acq rel => Sys2Proof.Machine.execAxor xd xa xb size scope acq rel s
  | .aswp xd xa xb size scope acq rel => Sys2Proof.Machine.execAswp xd xa xb size scope acq rel s
  | .acas xd xa xb xc size scope acq rel => Sys2Proof.Machine.execAcas xd xa xb xc size scope acq rel s
  | .red xa xb scope op type => Sys2Proof.Machine.execRed xa xb scope op type s
  | .tld td shape fmt xbase xstride xbound quant imm => Sys2Proof.Machine.execTld td shape fmt xbase xstride xbound quant imm s
  | .tst ts shape fmt xbase xstride xbound imm => Sys2Proof.Machine.execTst ts shape fmt xbase xstride xbound imm s
  | .tldx td shape fmt xbase xpb ti quant imm => Sys2Proof.Machine.execTldx td shape fmt xbase xpb ti quant imm s
  | .tstx ts shape fmt xbase xpb ti imm => Sys2Proof.Machine.execTstx ts shape fmt xbase xpb ti imm s
  | .tzero td shape fmt quant => Sys2Proof.Machine.execTzero td shape fmt quant s
  | .tfill td shape fmt quant xs => Sys2Proof.Machine.execTfill td shape fmt quant xs s
  | .tmov td ta => Sys2Proof.Machine.execTmov td ta s
  | .tmovx ta xs imm => Sys2Proof.Machine.execTmovx ta xs imm s
  | .tmovs td ta xs imm => Sys2Proof.Machine.execTmovs td ta xs imm s
  | .tshr ta xs => Sys2Proof.Machine.execTshr ta xs s
  | .treshape td ta shape fmt quant => Sys2Proof.Machine.execTreshape td ta shape fmt quant s
  | .mpin pin ta tb => Sys2Proof.Machine.execMpin pin ta tb s
  | .mma acc pin ta tb z => Sys2Proof.Machine.execMma acc pin ta tb z s
  | .mmat acc pin ta z half => Sys2Proof.Machine.execMmat acc pin ta z half s
  | .mopa acc ta tb z half => Sys2Proof.Machine.execMopa acc ta tb z half s
  | .mdrain td acc shape fmt quant imm rnd inf amax => Sys2Proof.Machine.execMdrain td acc shape fmt quant imm rnd inf amax s
  | .maccld acc ta imm z => Sys2Proof.Machine.execMaccld acc ta imm z s
  | .wdrain td pin sel => Sys2Proof.Machine.execWdrain td pin sel s
  | .mzero acc => Sys2Proof.Machine.execMzero acc s
  | .vadd td ta tb xs form rnd inf => Sys2Proof.Machine.execVadd td ta tb xs form rnd inf s
  | .vsub td ta tb xs form rnd inf => Sys2Proof.Machine.execVsub td ta tb xs form rnd inf s
  | .vmul td ta tb xs form rnd inf => Sys2Proof.Machine.execVmul td ta tb xs form rnd inf s
  | .vfma td ta tb xs form tc rnd inf => Sys2Proof.Machine.execVfma td ta tb xs form tc rnd inf s
  | .vmin td ta tb xs form => Sys2Proof.Machine.execVmin td ta tb xs form s
  | .vmax td ta tb xs form => Sys2Proof.Machine.execVmax td ta tb xs form s
  | .vand td ta tb xs form => Sys2Proof.Machine.execVand td ta tb xs form s
  | .vor td ta tb xs form => Sys2Proof.Machine.execVor td ta tb xs form s
  | .vxor td ta tb xs form => Sys2Proof.Machine.execVxor td ta tb xs form s
  | .vshl td ta tb xs form => Sys2Proof.Machine.execVshl td ta tb xs form s
  | .vshr td ta tb xs form sel => Sys2Proof.Machine.execVshr td ta tb xs form sel s
  | .vcmp td ta tb xs form shape fmt sel => Sys2Proof.Machine.execVcmp td ta tb xs form shape fmt sel s
  | .vsel td ta tb xs form tc => Sys2Proof.Machine.execVsel td ta tb xs form tc s
  | .vabs td ta => Sys2Proof.Machine.execVabs td ta s
  | .vneg td ta => Sys2Proof.Machine.execVneg td ta s
  | .vdiv td ta tb xs form rnd inf => Sys2Proof.Machine.execVdiv td ta tb xs form rnd inf s
  | .vcvt td ta tb tc shape fmt quant rnd inf amax => Sys2Proof.Machine.execVcvt td ta tb tc shape fmt quant rnd inf amax s
  | .vexp2 td ta => Sys2Proof.Machine.execVexp2 td ta s
  | .vlog2 td ta => Sys2Proof.Machine.execVlog2 td ta s
  | .vrcp td ta rnd inf => Sys2Proof.Machine.execVrcp td ta rnd inf s
  | .vrsq td ta => Sys2Proof.Machine.execVrsq td ta s
  | .vsqrt td ta rnd inf => Sys2Proof.Machine.execVsqrt td ta rnd inf s
  | .vtanh td ta => Sys2Proof.Machine.execVtanh td ta s
  | .vsigm td ta => Sys2Proof.Machine.execVsigm td ta s
  | .vgelu td ta => Sys2Proof.Machine.execVgelu td ta s
  | .vamax ta tb quant => Sys2Proof.Machine.execVamax ta tb quant s
  | .vrand td shape fmt quant => Sys2Proof.Machine.execVrand td shape fmt quant s
  | .viota td shape fmt quant xs imm => Sys2Proof.Machine.execViota td shape fmt quant xs imm s
  | .vclamp td ta tb tc xs imm form => Sys2Proof.Machine.execVclamp td ta tb tc xs imm form s
  | .vrsum td ta shape fmt rnd inf => Sys2Proof.Machine.execVrsum td ta shape fmt rnd inf s
  | .vrmax td ta shape fmt => Sys2Proof.Machine.execVrmax td ta shape fmt s
  | .vrmin td ta shape fmt => Sys2Proof.Machine.execVrmin td ta shape fmt s
  | .vcsum td ta shape fmt rnd inf => Sys2Proof.Machine.execVcsum td ta shape fmt rnd inf s
  | .vcmax td ta shape fmt => Sys2Proof.Machine.execVcmax td ta shape fmt s
  | .vcmin td ta shape fmt => Sys2Proof.Machine.execVcmin td ta shape fmt s
  | .vtrans td ta => Sys2Proof.Machine.execVtrans td ta s
  | .vbcast td ta shape imm sel => Sys2Proof.Machine.execVbcast td ta shape imm sel s
  | .vshuf td ta tb form => Sys2Proof.Machine.execVshuf td ta tb form s
  | .vscan td ta sel rnd inf => Sys2Proof.Machine.execVscan td ta sel rnd inf s
  | .vrdot td ta tb shape fmt rnd inf form => Sys2Proof.Machine.execVrdot td ta tb shape fmt rnd inf form s
  | .skinit xa xb xc depth lgw scale seedset => Sys2Proof.Machine.execSkinit xa xb xc depth lgw scale seedset s
  | .skzero xa => Sys2Proof.Machine.execSkzero xa s
  | .skupd xa ta xb tk sel => Sys2Proof.Machine.execSkupd xa ta xb tk sel s
  | .skqry td xa xb tk sel shape => Sys2Proof.Machine.execSkqry td xa xb tk sel shape s
  | .skadd xa xb => Sys2Proof.Machine.execSkadd xa xb s
  | .skmul xa xb => Sys2Proof.Machine.execSkmul xa xb s
  | .skfence => Sys2Proof.Machine.execSkfence s
  | .skstat xd xa sel => Sys2Proof.Machine.execSkstat xd xa sel s
  | .gqpush xa ta index imm rel scope => Sys2Proof.Machine.execGqpush xa ta index imm rel scope s
  | .gqpop xd td index imm acq scope => Sys2Proof.Machine.execGqpop xd td index imm acq scope s
  | .gqpops xd td index acq scope => Sys2Proof.Machine.execGqpops xd td index acq scope s
  | .gqstat xd index imm sel => Sys2Proof.Machine.execGqstat xd index imm sel s
  | .msgsend xa xb ta rel scope => Sys2Proof.Machine.execMsgsend xa xb ta rel scope s
  | .msgwait xd => Sys2Proof.Machine.execMsgwait xd s
  | .msgrecv xd td acq scope => Sys2Proof.Machine.execMsgrecv xd td acq scope s
  | .cpygo xd index => Sys2Proof.Machine.execCpygo xd index s
  | .cpywait xd xa xb => Sys2Proof.Machine.execCpywait xd xa xb s
  | .cpystat xd index => Sys2Proof.Machine.execCpystat xd index s
  | .cpycancel xd index => Sys2Proof.Machine.execCpycancel xd index s
  | .lkred xd xa xb index => Sys2Proof.Machine.execLkred xd xa xb index s
  | .lkskadd xd xa index => Sys2Proof.Machine.execLkskadd xd xa index s
  | .lkwait xd xa xb => Sys2Proof.Machine.execLkwait xd xa xb s
  | .lkstat xd xa => Sys2Proof.Machine.execLkstat xd xa s
  | .syarr xd index rel => Sys2Proof.Machine.execSyarr xd index rel s
  | .sywait xd xa index acq => Sys2Proof.Machine.execSywait xd xa index acq s
  | .sybar xd index rel acq => Sys2Proof.Machine.execSybar xd index rel acq s
  | .sybc xd xa xc index sel rel acq => Sys2Proof.Machine.execSybc xd xa xc index sel rel acq s
  | .syred xd xa xc index sel u rel acq => Sys2Proof.Machine.execSyred xd xa xc index sel u rel acq s
  | .sygen xd index => Sys2Proof.Machine.execSygen xd index s
  | .rzinit xa xb => Sys2Proof.Machine.execRzinit xa xb s
  | .rzarr xa rel scope => Sys2Proof.Machine.execRzarr xa rel scope s
  | .rzwait xd xa xb acq scope => Sys2Proof.Machine.execRzwait xd xa xb acq scope s
  | .acq scope => Sys2Proof.Machine.execAcq scope s
  | .rel scope => Sys2Proof.Machine.execRel scope s
  | .fence => Sys2Proof.Machine.execFence s
  | .qfence imm => Sys2Proof.Machine.execQfence imm s
  | .hint k payload => Sys2Proof.Machine.execHint k payload s
  | .lineFetch => Sys2Proof.Machine.execLineFetch s
  | .engineIssue => Sys2Proof.Machine.execEngineIssue s
  | .retire => Sys2Proof.Machine.execRetire s
  | .storeDrainWrite => Sys2Proof.Machine.execStoreDrainWrite s
  | .preciseFaultEntry cls detail faddr finfo => Sys2Proof.Machine.execPreciseFaultEntry cls detail faddr finfo s
  | .afterRetireEntry cls detail faddr finfo => Sys2Proof.Machine.execAfterRetireEntry cls detail faddr finfo s
  | .asynchronousEntry => Sys2Proof.Machine.execAsynchronousEntry s
  | .deferredReportArrival index => Sys2Proof.Machine.execDeferredReportArrival index s
  | .preEmptionSignal => Sys2Proof.Machine.execPreEmptionSignal s
  | .resumptionEntry launch strand => Sys2Proof.Machine.execResumptionEntry launch strand s
  | .machineCheck detail number addr => Sys2Proof.Machine.execMachineCheck detail number addr s
  | .correctedError kind unit set => Sys2Proof.Machine.execCorrectedError kind unit set s
  | .hbmChannelSparing channel => Sys2Proof.Machine.execHbmChannelSparing channel s
  | .scrub => Sys2Proof.Machine.execScrub s
  | .sleepWake => Sys2Proof.Machine.execSleepWake s
  | .syncWaitTimeout => Sys2Proof.Machine.execSyncWaitTimeout s
  | .copyDeadlineLate => Sys2Proof.Machine.execCopyDeadlineLate s
  | .collectiveDeadlineLate => Sys2Proof.Machine.execCollectiveDeadlineLate s
  | .roundComplete segment => Sys2Proof.Machine.execRoundComplete segment s
  | .apertureAccessPerform => Sys2Proof.Machine.execApertureAccessPerform s
  | .copyTransferBegin channel => Sys2Proof.Machine.execCopyTransferBegin channel s
  | .copyBeat => Sys2Proof.Machine.execCopyBeat s
  | .transferComplete channel => Sys2Proof.Machine.execTransferComplete channel s
  | .transferError channel => Sys2Proof.Machine.execTransferError channel s
  | .postQueueSend => Sys2Proof.Machine.execPostQueueSend s
  | .redPerform post => Sys2Proof.Machine.execRedPerform post s
  | .sketchOperationBegin post => Sys2Proof.Machine.execSketchOperationBegin post s
  | .counterApply job controller => Sys2Proof.Machine.execCounterApply job controller s
  | .sketchAcknowledge job => Sys2Proof.Machine.execSketchAcknowledge job s
  | .gradientEntryArrival index => Sys2Proof.Machine.execGradientEntryArrival index s
  | .windowCountReturn index => Sys2Proof.Machine.execWindowCountReturn index s
  | .messageArrival index => Sys2Proof.Machine.execMessageArrival index s
  | .undeliverableAccept index => Sys2Proof.Machine.execUndeliverableAccept index s
  | .collectivePairing index => Sys2Proof.Machine.execCollectivePairing index s
  | .collectiveComplete index => Sys2Proof.Machine.execCollectiveComplete index s
  | .sideLogDoorbell controller colour => Sys2Proof.Machine.execSideLogDoorbell controller colour s
  | .sideLogDiscard controller colour seq => Sys2Proof.Machine.execSideLogDiscard controller colour seq s
  | .permissionTlbMiss va => Sys2Proof.Machine.execPermissionTlbMiss va s
  | .memorySideWalk asid colour va => Sys2Proof.Machine.execMemorySideWalk asid colour va s
  | .windowGranuleFill va => Sys2Proof.Machine.execWindowGranuleFill va s
  | .clusterCacheFill va => Sys2Proof.Machine.execClusterCacheFill va s
  | .clusterCacheVictim cluster line => Sys2Proof.Machine.execClusterCacheVictim cluster line s
  | .l2Victim line => Sys2Proof.Machine.execL2Victim line s
  | .versionWrapSweep scope => Sys2Proof.Machine.execVersionWrapSweep scope s
  | .routerCombine router va => Sys2Proof.Machine.execRouterCombine router va s
  | .hostPostedWrite fn off bytes relaxed accept => Sys2Proof.Machine.execHostPostedWrite fn off bytes relaxed accept s
  | .hostReadRequest fn place n => Sys2Proof.Machine.execHostReadRequest fn place n s
  | .cxlMemRequest off bytes => Sys2Proof.Machine.execCxlMemRequest off bytes s
  | .bisnpResponse line => Sys2Proof.Machine.execBisnpResponse line s
  | .hostSnoop addr => Sys2Proof.Machine.execHostSnoop addr s
  | .commandDoorbell fn cprod => Sys2Proof.Machine.execCommandDoorbell fn cprod s
  | .commandRegisterWrite fn off value => Sys2Proof.Machine.execCommandRegisterWrite fn off value s
  | .launch fn => Sys2Proof.Machine.execLaunch fn s
  | .cancel fn => Sys2Proof.Machine.execCancel fn s
  | .mapPages fn => Sys2Proof.Machine.execMapPages fn s
  | .unmapPages fn => Sys2Proof.Machine.execUnmapPages fn s
  | .remapPages fn => Sys2Proof.Machine.execRemapPages fn s
  | .migrate fn => Sys2Proof.Machine.execMigrate fn s
  | .partition fn => Sys2Proof.Machine.execPartition fn s
  | .restitch fn => Sys2Proof.Machine.execRestitch fn s
  | .restitchComplete region => Sys2Proof.Machine.execRestitchComplete region s
  | .retireCore fn => Sys2Proof.Machine.execRetireCore fn s
  | .preEmpt fn => Sys2Proof.Machine.execPreEmpt fn s
  | .resumePartition fn => Sys2Proof.Machine.execResumePartition fn s
  | .signalToken fn => Sys2Proof.Machine.execSignalToken fn s
  | .setToken fn => Sys2Proof.Machine.execSetToken fn s
  | .waitToken fn => Sys2Proof.Machine.execWaitToken fn s
  | .waitMet fn => Sys2Proof.Machine.execWaitMet fn s
  | .queryCounters fn => Sys2Proof.Machine.execQueryCounters fn s
  | .updateFirmware fn => Sys2Proof.Machine.execUpdateFirmware fn s
  | .attest fn => Sys2Proof.Machine.execAttest fn s
  | .bindBridge fn => Sys2Proof.Machine.execBindBridge fn s
  | .setPatience fn => Sys2Proof.Machine.execSetPatience fn s
  | .getVersion => Sys2Proof.Machine.execGetVersion s
  | .getCapabilities => Sys2Proof.Machine.execGetCapabilities s
  | .negotiateAlgorithms => Sys2Proof.Machine.execNegotiateAlgorithms s
  | .getDigests => Sys2Proof.Machine.execGetDigests s
  | .getCertificate off len => Sys2Proof.Machine.execGetCertificate off len s
  | .challenge nonce => Sys2Proof.Machine.execChallenge nonce s
  | .getMeasurements => Sys2Proof.Machine.execGetMeasurements s
  | .dispatcherRound colour => Sys2Proof.Machine.execDispatcherRound colour s
  | .strandStart launch sheaf => Sys2Proof.Machine.execStrandStart launch sheaf s
  | .patienceExpiry launch => Sys2Proof.Machine.execPatienceExpiry launch s
  | .reservationExpiry launch => Sys2Proof.Machine.execReservationExpiry launch s
  | .peerReservationReport launch => Sys2Proof.Machine.execPeerReservationReport launch s
  | .strandEndReport => Sys2Proof.Machine.execStrandEndReport s
  | .launchEnd launch => Sys2Proof.Machine.execLaunchEnd launch s
  | .completionRecordWrite launch => Sys2Proof.Machine.execCompletionRecordWrite launch s
  | .colourDrainComplete colour => Sys2Proof.Machine.execColourDrainComplete colour s
  | .preEmptionPatienceExpiry colour => Sys2Proof.Machine.execPreEmptionPatienceExpiry colour s
  | .flitReceive port bytes => Sys2Proof.Machine.execFlitReceive port bytes s
  | .ackReceive port seq => Sys2Proof.Machine.execAckReceive port seq s
  | .nakReceive port seq => Sys2Proof.Machine.execNakReceive port seq s
  | .portFailure port => Sys2Proof.Machine.execPortFailure port s
  | .portDegrade port => Sys2Proof.Machine.execPortDegrade port s
  | .bridgeTraining => Sys2Proof.Machine.execBridgeTraining s
  | .bridgeRead read => Sys2Proof.Machine.execBridgeRead read s
  | .bridgeWrite port => Sys2Proof.Machine.execBridgeWrite port s
  | .bridgeAtomic read => Sys2Proof.Machine.execBridgeAtomic read s
  | .bridgeMessage port => Sys2Proof.Machine.execBridgeMessage port s
  | .bridgeCollective port => Sys2Proof.Machine.execBridgeCollective port s
  | .bridgeCompletion port => Sys2Proof.Machine.execBridgeCompletion port s
  | .bridgeAcknowledgement answer => Sys2Proof.Machine.execBridgeAcknowledgement answer s
  | .powerSample watts => Sys2Proof.Machine.execPowerSample watts s
  | .clusterGate cluster => Sys2Proof.Machine.execClusterGate cluster s
  | .idleTimeout => Sys2Proof.Machine.execIdleTimeout s
  | .wake => Sys2Proof.Machine.execWake s
  | .d3hot => Sys2Proof.Machine.execD3hot s
  | .packageReset => Sys2Proof.Machine.execPackageReset s
  | .coreReset core => Sys2Proof.Machine.execCoreReset core s
  | .valueReturn => Sys2Proof.Machine.execValueReturn s
  | .instructionComplete => Sys2Proof.Machine.execInstructionComplete s
  | .cxlCacheResponse core => Sys2Proof.Machine.execCxlCacheResponse core s
  | .portRetrainComplete port => Sys2Proof.Machine.execPortRetrainComplete port s
  | .windowBaseWrite value => Sys2Proof.Machine.execWindowBaseWrite value s

end Sys2Proof.Machine
end

