-- ==== Sys2Proof/Machine/Turn.lean ====
section
/-! DEFINITION. One turn of the machine: a turn of the agenda, or of the strand in focus (DESIGN CHOICE, log entry 3); the clocks that pass (DESIGN CHOICE, log entry 2);
the placing of one instruction where the strand fetches next. -/

namespace Sys2Proof.Machine

/-- The clocks of a card's dispatchers go on. -/
def Card.tick (k : Card) (n : Nat) : Card := { k with clocks := k.clocks.map fun c => c + n }

/-- Time goes on by n clocks: every core's s.cycle (R5, R23) and every dispatcher's clock (R404). -/
def State.tick (s : State) (n : Nat) : State :=
  let c (c : Core) : Core := { c with cycle := c.cycle + BitVec.ofNat 64 n }
  { s with
    core := c s.core
    card := { s.card with cores := s.card.cores.map c }.tick n
    peer := { s.peer with cores := s.peer.cores.map c }.tick n
    draws := s.draws + 1 }

/-- The oldest instruction behind which others have issued: it has issued early itself and retires with what it read, or it runs. -/
def State.runAhead (s : State) (i : Instr) : Host.Outcome State Fault Refusal :=
  match s.core.early.find? fun e => e.after == 0 with
  | some e => if e.done then .next (s.takeEarly e).age else aged (exec i s)
  | none => aged (exec i s)

/-- The instruction at the PC: fetched and executed, or its fetch fault taken. -/
def State.runStrand (s : State) : Host.Outcome State Fault Refusal :=
  match s.fetch with
  | .error x => .next (s.enter x)
  | .ok (t, i) => if t.core.early.isEmpty then exec i t else t.runAhead i

/-- What the core in focus does: it takes a pending cause that may be taken (R316), the default handler acts (R471), or its instruction runs. -/
def State.act (s : State) : Host.Outcome State Fault Refusal :=
  if s.asyncCause.isSome then .next s.takeAsync
  else match s.core.fw with
    | x :: _ => .next (s.firmware x)
    | [] => s.runStrand

/-- What goes on while the core in focus waits for a host: one unit of work, once a BISnp is out. -/
def State.awaitHost (s t : State) : State := if s.card.snoops.isEmpty then t else t.background

/-- The turn of the core in focus: nothing without a running strand, nor of a parked strand's program (R32); else what it does, before which a
waiting strand lets one unit of work be done. -/
def State.strandTurn (s : State) : Host.Outcome State Fault Refusal :=
  if s.core.run ≠ .running then .next s
  else if s.asyncCause.isSome then s.guarded s.awaitHost s.act
  else if s.core.isParked && !s.core.supervisor then .next s
  else
    let t := if s.core.waiting.isSome then s.background else s
    t.guarded t.awaitHost t.act

/-- The event in which a host gives lines up, and the reset, clear host bits of their own (R434, R6). -/
def clearsHostBits : Instr → Bool
  | .bisnpResponse _ => true
  | .packageReset .. => true
  | _ => false

/-- A turn. An instruction runs only where a strand fetches it: of the table's rows an agenda names events. -/
def State.take (s : State) : Turn → Host.Outcome State Fault Refusal
  | .strand => s.strandTurn
  | .event i =>
    if (encode i).isSome then .next s
    else if clearsHostBits i then exec i s
    else s.guarded id (exec i s)
  | .hostStore a bs => .next { s with host := { s.host with mem := writeBytes s.host.mem (a % 2 ^ 46) bs } }
  | .focusCore n => .next (s.focus n)
  | .swapCards => .next s.flip

/-- The next turn: the head of the agenda, or the strand in focus. -/
def State.nextTurn (s : State) : Host.Outcome State Fault Refusal :=
  match s.agenda with
  | [] => s.strandTurn
  | t :: rest => ({ s with agenda := rest } : State).take t

/-- A turn, and the time that it takes. -/
def State.turn (s : State) : Host.Outcome State Fault Refusal :=
  match s.nextTurn with
  | .next t => .next (t.tick (Config.elapsed s.draws))
  | .fault f => .fault f
  | .refused r => .refused r

/-! ### Placing an instruction -/

/-- The line word for a line's slots (R60): every slot a branch target, with the parities. -/
def lineWordOf (slots : List Nat) : Nat :=
  let bit (i : Nat) (b : Bool) : Nat := if b then 2 ^ i else 0
  let low := 2 ^ 5 - 1 + ((slots.zipIdx).map fun p => bit (16 + p.2) (parity 96 p.1)).sum
  low + bit 21 (parity 21 low)

/-- A line with an instruction in one slot and NOPs in the others. -/
def lineWith (slot w : Nat) : List Byte :=
  let slots := (List.range 5).map fun i => if i = slot then w % 2 ^ 96 else 0
  slots.flatMap (toBytes 12) ++ toBytes 4 (lineWordOf slots)

/-- The strand in focus runs, and the instruction whose bits are w stands in the line of its PC (of line 0, slot 0, when its PC is no slot):
in its line buffer, under a translation that its permission TLB holds; nothing else is due before it. -/
def State.placeWord (s : State) (nbits w : Nat) : State :=
  let pc := if validPc s.core.pc then s.core.pc else 0#64
  let line := (lineOf pc).toNat
  let asid := if shared line then 0 else s.core.asid.toNat
  { s with
    agenda := []
    core := { s.core with
      run := .running
      pc := pc
      waiting := none
      waitFrom := none
      fw := []
      machineChecks := []
      preempt := none
      reports := []
      tlb := ⟨asid, s.core.colour.toNat, line / 2 ^ 16, 16, true, true, true, false⟩ :: s.core.tlb
      parked := .free
      early := []
      lineBuffer := [⟨tagOf s.core.asid.toNat line, lineWith (pcOffset pc / 12) (w % 2 ^ nbits)⟩] } }

end Sys2Proof.Machine
end

