-- ==== Sys2Proof/Safety.lean ====
section
/-! DEFINITION. What a safe run is, and the words in which the statements speak of a state and of the next one: what a form needs, what
it writes, and that everything else is as before. -/

namespace Sys2Proof.Machine

/-- The machine takes n steps from a state without a fault or a refusal. -/
def RunsFor : Nat → State → Prop
  | 0, _ => True
  | n + 1, s => ∃ t, step s = .next t ∧ RunsFor n t

/-- A safe state: no number of steps leads to a fault or a refusal. -/
def Safe (s : State) : Prop := ∀ n, RunsFor n s

/-- From s to t, one instruction has retired that writes v to xd and sets the FP flags fl: x0 stays 0 (R19), the flags are sticky (R54),
the next slot follows (R61), and every other register and all memory are as before. -/
def State.WritesX (s t : State) (xd : BitVec 6) (v : Word) (fl : BitVec 5) : Prop :=
  (∀ r, t.core.xr r = if r = xd ∧ r ≠ 0#6 then v else s.core.xr r) ∧
  t.core.ps = s.core.ps ||| fl.setWidth 64 <<< 3 ∧
  t = { s with core := { s.core with x := t.core.x, ps := t.core.ps, pc := nextPc s.core.pc, waitFrom := none, waiting := none } }

/-- The same for a tile: td takes v and its s.dirty.t bit (R150), the flags fl are set, and an SR-using instruction is counted (R46). -/
def State.WritesT (s t : State) (td : BitVec 5) (v : Tile) (fl : BitVec 5) (sr : Bool) : Prop :=
  (∀ r, t.core.tr r = if r = td then v else s.core.tr r) ∧
  t.core.dirtyT = s.core.dirtyT ||| 1#32 <<< td.toNat ∧
  t.core.ps = s.core.ps ||| fl.setWidth 64 <<< 3 ∧
  t.core.serial = s.core.serial + (if sr then 1#44 else 0#44) ∧
  t = { s with core := { s.core with
    t := t.core.t, dirtyT := t.core.dirtyT, ps := t.core.ps, serial := t.core.serial,
    pc := nextPc s.core.pc, waitFrom := none, waiting := none } }

/-- The same for an accumulator: acc takes v and its s.dirty.a bit (R155). -/
def State.WritesA (s t : State) (acc : BitVec 3) (v : Acc) : Prop :=
  (∀ r, t.core.ar r = if r = acc then v else s.core.ar r) ∧
  t = { s with core := { s.core with
    a := t.core.a, dirtyA := s.core.dirtyA ||| 1#8 <<< acc.toNat, pc := nextPc s.core.pc, waitFrom := none, waiting := none } }

/-- ±n/d. -/
def signedRatio (neg : Bool) (n d : Nat) : ℚ := (if neg then -1 else 1) * (n : ℚ) / (d : ℚ)

/-- A code of a format stands for a number (R36, R37). -/
def codeIs (f : FloatFmt) (b : Nat) (x : ℚ) : Prop :=
  b < 2 * f.signBit ∧ ∃ neg n d, decodeFloat f b = .fin neg n d ∧ x = signedRatio neg n d

/-- The integer conditions of R76. -/
def integerCondition (cond : BitVec 4) (a b : Word) : Prop :=
  match cond.toNat with
  | 0 => a = b
  | 1 => a ≠ b
  | 2 => a.toInt < b.toInt
  | 3 => b.toInt ≤ a.toInt
  | 4 => a.toInt ≤ b.toInt
  | 5 => b.toInt < a.toInt
  | 6 => a.toNat < b.toNat
  | 7 => b.toNat ≤ a.toNat
  | 8 => a.toNat ≤ b.toNat
  | 9 => b.toNat < a.toNat
  | _ => False

/-- The rounding mode m of R99: rmode, or s.ps.rnd when rmode is 0b000. -/
def floatMode (s : State) (rmode : BitVec 3) : Mode :=
  match (if rmode = 0#3 then s.core.psRnd.toNat else rmode.toNat - 1) with
  | 0 => .nearest
  | 1 => .zero
  | 2 => .down
  | _ => .up

/-- The front end accepts a transfer to a target (R64): a valid PC whose line may be fetched, with the tmask bit of its slot in a line word
that passes lpar. -/
def canEnter (s : State) (op : Word) (target : Word) : Prop :=
  let lw := lineWord (s.deliver (lineOf target).toNat).2
  validPc target = true ∧ s.fetchFault target op = none ∧ s.lineLost (lineOf target).toNat = false ∧ lparOk lw = true ∧ lw.getLsbD (pcOffset target / 12) = true

/-- The strand is at a target whose line the front end has fetched; xd takes v. -/
def arrives (s : State) (target : Word) (xd : BitVec 6) (v : Word) : State :=
  let t := (s.deliver (lineOf target).toNat).1
  { t with core := (t.core.setX xd v).leave target }

/-- The PC after n further slots of the sequential flow (R61): slots of 12 bytes, five to a line of 64. -/
def slotsOn (pc : Word) (n : Nat) : Word :=
  let slot := pc.toNat % 64 / 12 + n
  pc - BitVec.ofNat 64 (pc.toNat % 64) + BitVec.ofNat 64 (64 * (slot / 5) + 12 * (slot % 5))

/-- A scalar access of n bytes that R114 and R385 let pass: canonical, aligned, permitted on every page, and for a peer page the bridge up. -/
def scalarAllowed (s : State) (a : Access) (ea : Word) (n : Nat) : Prop :=
  ea.toNat < 2 ^ 52 ∧ ea.toNat % n = 0 ∧ s.accessFault a ea.toNat (ea.toNat + n) = none ∧
    (a = .store ∨ s.bridgeFault ea.toNat (ea.toNat + n) = none)

/-- The n bytes of a number, extended to a register (R115, R119). -/
def extended (n : Nat) (sx : Bool) (v : Nat) : Word :=
  if sx then (BitVec.ofNat (8 * n) v).signExtend 64 else BitVec.ofNat 64 v

/-- What an atomic writes over the old value v and the operand b of w bits (R119); none when it writes nothing. -/
def atomicNew (w : Nat) (k : Nat) (u : Bool) (new v b : Nat) : Option Nat :=
  let int (x : Nat) : Int := if u ∨ x < 2 ^ (w - 1) then x else (x : Int) - 2 ^ w
  match k with
  | 0 => some ((v + b) % 2 ^ w)
  | 1 => some (if int v ≤ int b then v else b)
  | 2 => some (if int v ≤ int b then b else v)
  | 3 => some (v &&& b)
  | 4 => some (v ||| b)
  | 5 => some (v ^^^ b)
  | 6 => some b
  | _ => if v = b then some (new % 2 ^ w) else none

/-- A tile number that R90 lets the strand name, on a core that has the engine (R27). -/
def tilesAllowed (s : State) (ts : List (BitVec 5)) : Prop :=
  s.core.kind ≠ .command ∧ (s.core.supervisor = true ∨ ∀ t ∈ ts, t.toNat < s.core.limits.tiles)

/-- Rows at addresses that R135 lets pass, within [lo, hi), of rowbytes bytes each. -/
def rowsAllowed (s : State) (a : Access) (rows rowbytes elem : Nat) (lo hi : Int) (addr : Nat → Int) : Prop :=
  0 ≤ lo ∧ hi ≤ 2 ^ 52 ∧ ∀ m < rows, addr m % (elem : Int) = 0 ∧
    s.accessFault a (addr m).toNat ((addr m).toNat + rowbytes) = none ∧
    (a = .store ∨ s.bridgeFault (addr m).toNat ((addr m).toNat + rowbytes) = none)

/-- [lo, hi) is the bounding box of rows (R132). -/
def boundingBox (rows rowbytes : Nat) (lo hi : Int) (addr : Nat → Int) : Prop :=
  (∀ m < rows, lo ≤ addr m ∧ addr m + rowbytes ≤ hi) ∧ (∃ m < rows, addr m = lo) ∧ ∃ m < rows, addr m + rowbytes = hi

/-- The address of row m of TLD and TST (R132). -/
def stridedRow (s : State) (xbase xstride : BitVec 6) (imm : BitVec 32) (m : Nat) : Int :=
  (s.core.xr xbase).toNat + imm.toInt + m * (s.core.xr xstride).toInt

/-- The address of row m of TLDX and TSTX (R134), with the index that it takes from the index tile. -/
def rowIndex (s : State) (ti : BitVec 5) (m : Nat) : Int :=
  (BitVec.ofNat 32 ((s.core.tr ti).elems.flatten.getD m 0)).toInt
def indexedRow (s : State) (xbase xpb : BitVec 6) (imm : BitVec 32) (ti : BitVec 5) (m : Nat) : Int :=
  (s.core.xr xbase).toNat + imm.toInt + rowIndex s ti m * ((s.core.xr xpb).extractLsb' 0 32).toNat

/-- Checks of an instruction in their order: the first condition that holds is its exception, and when none does, `rest` follows. -/
def State.trapsFirst (s : State) (i : Instr) : List (Prop × Exc) → Prop → Prop
  | [], rest => rest
  | (p, x) :: l, rest => (p → exec i s = .next (s.enter x)) ∧ (¬p → s.trapsFirst i l rest)

/-- s.finfo of a fault that an engine reports (R130): row, engine, role, register number, opcode. -/
def faultInfo (row engine role tile op : Nat) : Word := BitVec.ofNat 64 (row * 2 ^ 20 + engine * 2 ^ 16 + role * 2 ^ 13 + tile * 2 ^ 8 + op)

/-- The checks that every sketch instruction begins with (R227): a command processor, then the record's address and `others`. -/
def sketchChecks (s : State) (a : Word) (others : List Word) (tile op : Nat) : List (Prop × Exc) :=
  [(s.core.kind = .command, ⟨6, 0, 0#64, faultInfo 0 6 0 0 op⟩), (a.toNat % 64 ≠ 0, ⟨4, 0, a, faultInfo 0 6 0 tile op⟩),
   ((∃ w ∈ a :: others, 2 ^ 52 ≤ w.toNat), ⟨4, 1, a, faultInfo 0 6 0 tile op⟩)]

/-- An index tile and a table of R134 that let every row pass. -/
def indexAllowed (s : State) (xpb : BitVec 6) (ti fmt : BitVec 5) (rows rowbytes : Nat) : Prop :=
  let t := s.core.tr ti
  let pitch := ((s.core.xr xpb).extractLsb' 0 32).toNat
  t.rows ≠ 0 ∧ t.fmt = 10#5 ∧ rows ≤ t.rows * (t.rowbytes / 4) ∧ rows ≤ t.elems.flatten.length ∧
    rowbytes ≤ pitch ∧ pitch % elemBytes fmt = 0 ∧
    ∀ m < rows, 0 ≤ rowIndex s ti m ∧ rowIndex s ti m < ((s.core.xr xpb).extractLsb' 32 32).toNat

/-! ### Tiles -/

/-- Element n of row m (R35, R176). -/
def Tile.el (t : Tile) (m n : Nat) : Nat := (t.elems.getD m []).getD n 0

/-- The bytes of a tile fit its record (R126): rows of rowbytes bytes, whole elements. -/
def Tile.Shaped (t : Tile) : Prop :=
  t.data.length = t.rows ∧ (∀ r ∈ t.data, r.length = t.rowbytes) ∧ t.rowbytes % elemBytes t.fmt = 0

/-- A tile from its elements. -/
def tileOf (rows rowbytes : Nat) (fmt : BitVec 5) (quant : BitVec 4) (f : Nat → Nat → Nat) : Tile :=
  mkTile rows rowbytes fmt quant ((List.range rows).map fun m => (List.range (elemCount fmt rowbytes)).map fun n => f m n)

/-- The second operand of a form (R177): tb, PUT(xs), row 0 of tb, column 0 of tb. -/
def operandEl (s : State) (form : BitVec 3) (ta tb : BitVec 5) (xs : BitVec 6) (m n : Nat) : Nat :=
  match form.toNat with
  | 0 => (s.core.tr tb).el m n
  | 1 => putElem (s.core.tr ta).fmt (s.core.xr xs)
  | 2 => (s.core.tr tb).el 0 n
  | _ => (s.core.tr tb).el m 0

/-- A second operand that R177 accepts beside ta. -/
def operandAllowed (s : State) (form : BitVec 3) (ta tb : BitVec 5) : Prop :=
  let a := s.core.tr ta
  let b := s.core.tr tb
  form = 1#3 ∨
  (b.rows ≠ 0 ∧ b.fmt = a.fmt ∧ b.Shaped ∧
    ((form = 0#3 ∧ b.rows = a.rows ∧ b.rowbytes = a.rowbytes) ∨ (form = 2#3 ∧ b.rowbytes = a.rowbytes) ∨ (form = 3#3 ∧ b.rows = a.rows)))

/-- The tiles that a form names. -/
def formTiles (form : BitVec 3) (ts : List (BitVec 5)) (tb : BitVec 5) : List (BitVec 5) := if form = 1#3 then ts else ts ++ [tb]

/-- An enabled exception among those that the elements of td raise (R46, R54, R130, R179): the class-5 exception of the highest enabled one, with
the lowest element index that raised it in s.faddr; nothing is written. The row in s.finfo is the model's reading, log entry 31. -/
def elementTraps (s : State) (i : Instr) (td : BitVec 5) (rows cols : Nat) (g : Nat → Nat → Nat × FpFlags) : Prop :=
  let engine := match i with
    | .mdrain _ acc .. => 2 + acc.toNat % 2
    | .gqpops .. => 6
    | _ => 4
  let fl (m n : Nat) : FpFlags := (g m n).2 &&& s.core.fptrap
  rows ≤ 64 → cols ≤ 256 → ∀ d m n, 1 ≤ d → d ≤ 5 → m < rows → n < cols → (fl m n).getLsbD (5 - d) = true →
    (∀ m' < rows, ∀ n' < cols, (fl m' n').getLsbD (5 - d) = true → 256 * m + n ≤ 256 * m' + n') →
    (∀ m' < rows, ∀ n' < cols, ∀ k < d, 1 ≤ k → (fl m' n').getLsbD (5 - k) = false) →
      exec i s = .next (s.enter ⟨5, d, BitVec.ofNat 64 (256 * m + n),
        BitVec.ofNat 64 (m * 2 ^ 20 + engine * 2 ^ 16 + 0 * 2 ^ 13 + td.toNat * 2 ^ 8 + (opcodeOf i).toNat)⟩)

/-- The instruction computes every element of td by g, a code and the exceptions that the element raises, unless an enabled exception is
among them (R54, R179): it retires with all of them set, td under the given record, then `more`, and nothing else changed; with one it traps. -/
def vectorEffect (s : State) (i : Instr) (td : BitVec 5) (rows rowbytes : Nat) (fmt : BitVec 5) (quant : BitVec 4) (sr : Bool)
    (g : Nat → Nat → Nat × FpFlags) (more : State → State) : Prop :=
  ((∀ m < rows, ∀ n < elemCount fmt rowbytes, (g m n).2 &&& s.core.fptrap = 0#5) →
    ∃ t fl, exec i s = .next (more t) ∧
      (∀ k, fl.getLsbD k = true ↔ ∃ m < rows, ∃ n < elemCount fmt rowbytes, (g m n).2.getLsbD k = true) ∧
      s.WritesT t td (tileOf rows rowbytes fmt quant fun m n => (g m n).1) fl sr) ∧
  elementTraps s i td rows (elemCount fmt rowbytes) g

def vectorWrites (s : State) (i : Instr) (td : BitVec 5) (rows rowbytes : Nat) (fmt : BitVec 5) (quant : BitVec 4) (sr : Bool)
    (g : Nat → Nat → Nat × FpFlags) : Prop :=
  vectorEffect s i td rows rowbytes fmt quant sr g id

/-- The amax of a quant register rises to the largest magnitude read (R52). -/
def raisesAmax (q : BitVec 4) (vs : List Val) (t : State) : State :=
  { t with core := t.core.setQ q (updateAmax (t.core.qr q) (amaxOf vs)) }

/-- The rounding of one element under rnd (R178): nearest even, or the draw of R46 and R47 under .SR. -/
def elementMode (s : State) (rnd : BitVec 2) (m n : Nat) : Mode :=
  if rnd = 1#2 then .stochastic ((srDraw s.core.seed s.core.serial (256 * m + n)).setWidth 32) else .nearest

/-- An exact result with its exceptions, rounded to a format (R178). -/
def rounded (s : State) (f : FloatFmt) (rnd : BitVec 2) (inf : Bool) (m n : Nat) (r : Val × FpFlags) : Nat × FpFlags :=
  let o := roundVal f (elementMode s rnd m n) inf r.1
  (o.code, o.flags ||| r.2)

/-- A two-operand instruction that copies the record of ta: element [m][n] is g of the elements of ta and of the second operand. -/
def elementwise (s : State) (i : Instr) (td ta tb : BitVec 5) (xs : BitVec 6) (form : BitVec 3) (accepts : BitVec 5 → Prop) (sr : Bool)
    (g : Nat → Nat → Nat → Nat → Nat × FpFlags) : Prop :=
  let a := s.core.tr ta
  tilesAllowed s (formTiles form [td, ta] tb) → a.rows ≠ 0 → a.Shaped → accepts a.fmt → operandAllowed s form ta tb →
    vectorWrites s i td a.rows a.rowbytes a.fmt a.quant sr fun m n => g m n (a.el m n) (operandEl s form ta tb xs m n)

/-! ### Special registers and modes -/

/-- The special registers of R23 and R233 that MFS reads, by number, with their values. -/
def specialRegisters (s : State) : List (Nat × Word) :=
  let c := s.core
  [(0x000, c.cycle), (0x001, BitVec.ofNat 64 c.num), (0x002, c.strand), (0x010, c.ps), (0x011, c.seed), (0x012, c.tvec), (0x013, c.epc),
   (0x014, c.cause), (0x015, c.faddr), (0x016, c.finfo), (0x017, c.sytmo), (0x020, c.asid.setWidth 64), (0x021, c.colour.setWidth 64),
   (0x022, c.dirtyT.setWidth 64), (0x023, c.dirtyA.setWidth 64), (0x024, c.dirtyW.setWidth 64)] ++
  ((List.range 8).map fun i => (0x008 + i, c.lvl.toList.getD i 0#64)) ++ ((List.range 4).map fun i => (0x028 + i, c.scr.toList.getD i 0#64)) ++
  ((List.range 8).map fun i => (0x100 + i, c.h.toList.getD i 0#64)) ++ ((List.range 16).map fun i => (0x110 + i, c.q.toList.getD i 0#64)) ++
  (List.range 8).flatMap fun k =>
    let d := c.copies.toList.getD k CopyChannel.reset
    [(0x200 + 16 * k, d.src), (0x201 + 16 * k, d.dst), (0x202 + 16 * k, d.rows), (0x203 + 16 * k, d.rowbytes), (0x204 + 16 * k, d.sstride),
     (0x205 + 16 * k, d.dstride), (0x206 + 16 * k, d.flags), (0x207 + 16 * k, d.rz), (0x208 + 16 * k, d.wm)]

/-- A copy channel of which R90 lets the strand use the shadows. -/
def channelAllowed (s : State) (k : Nat) : Prop := s.core.supervisor = true ∨ k < s.core.limits.copy

/-- The state after an instruction that leaves the core c and goes on in sequential flow. -/
def State.onward (s : State) (c : Core) : State :=
  { s with core := { c with pc := nextPc s.core.pc, waitFrom := none, waiting := none } }

/-- WritesX and WritesT together: td takes v and then xd takes w. -/
def State.WritesTX (s t : State) (td : BitVec 5) (v : Tile) (xd : BitVec 6) (w : Word) (fl : BitVec 5) : Prop :=
  (∀ r, t.core.tr r = if r = td then v else s.core.tr r) ∧
  (∀ r, t.core.xr r = if r = xd ∧ r ≠ 0#6 then w else s.core.xr r) ∧
  t.core.ps = s.core.ps ||| fl.setWidth 64 <<< 3 ∧
  t = { s with core := { s.core with
    t := t.core.t, dirtyT := s.core.dirtyT ||| 1#32 <<< td.toNat, x := t.core.x, ps := t.core.ps, pc := nextPc s.core.pc,
    waitFrom := none, waiting := none } }

/-- A release at a scope may be made now: nothing older is unperformed, and the host holds no line that it merges (R289, R434). -/
def State.releases (s : State) (rel : Bool) (scope : Nat) : Prop := rel = true → s.releaseReady scope = true ∧ s.releaseHeld scope = []

/-- The state after a release, if the instruction asks for one. -/
def State.released (s : State) (rel : Bool) (scope : Nat) : State := if rel then s.releaseAt scope else s

/-- The state after an acquire, if the instruction asks for one. -/
def State.acquired (s : State) (acq : Bool) (scope : Nat) : State := if acq then s.acquireAt scope else s

/-- A wait of s.sytmo clocks has run out (R270). -/
def waitedOut (c : Core) : Prop :=
  c.sytmo ≠ 0#64 ∧ ∃ w, c.waitFrom = some w ∧ 0 ≤ (c.cycle - w).toInt ∧ c.sytmo.toNat ≤ (c.cycle - w).toNat

/-- The state of a strand whose instruction waits for w: the same PC, and what it waits for is noted. -/
def State.waitsAt (s : State) (w : Wait) : State := { s with core := { s.core with waiting := some (w.since s.core.waiting) } }

/-- The same under s.sytmo, whose count runs from a clock on unless it runs already (R270). -/
def State.waitsSince (s : State) (clock : Word) : State :=
  { s with core := { s.core with
      waitFrom := some (s.core.waitFrom.getD clock), waiting := some (Wait.plain.since s.core.waiting) } }

def State.waitsOn (s : State) : State := s.waitsSince s.core.cycle

/-- The next command of a function is the last of its ring: a code with its tag and seven operand words (R436). -/
def State.ordered (s : State) (fn code tag : Nat) (ws : List Nat) : Prop :=
  let f := s.fn fn
  fn < 17 ∧ s.functionBusy fn = false ∧ f.cprod = f.ccons + 1#32 ∧ tag < 2 ^ 16 ∧ ws.length = 7 ∧
    ((List.range 8).map fun i => s.hostWord (f.cbase.toNat + 64 * (f.ccons.toNat % 2 ^ (f.lgsize.toNat % 16)) + 8 * i)) = (code + tag * 2 ^ 16) :: ws

/-- The state after a command that has an effect and completes with a status and a value: the ring's consumer goes on, and the completion
stands in the completion ring, with an interrupt (R436). -/
def State.answer (s : State) (fn tag status value : Nat) (effect : State → State) : State :=
  let f := s.fn fn
  let t := effect (s.setFn fn { f with ccons := f.ccons + 1#32 })
  let g := t.fn fn
  (t.putHost (g.cqbase.toNat + 16 * (g.qprod.toNat % 2 ^ (g.lgsize.toNat / 16 % 16)))
      (wordBytes (tag * 2 ^ 16 + status) ++ wordBytes value)).setFn fn
    { g with qprod := g.qprod + 1#32, interrupts := g.interrupts.set 0 (g.interrupts[0] + 1) }

/-- Every memory has its canonical form: the HBM of both cards, host memory, the stash of every core (Memory.wf), and
the code bytes that each core's front end goes on to read (Memory.rising). -/
def Core.memoryForm (c : Core) : Prop := Memory.wf c.stash.bytes = true ∧ Memory.rising c.codeView = true

def Card.memoryForm (k : Card) : Prop :=
  Memory.wf k.hbm = true ∧ ∀ c ∈ k.cores, c.memoryForm

def State.memoryForm (s : State) : Prop :=
  s.card.memoryForm ∧ s.peer.memoryForm ∧ s.core.memoryForm ∧ Memory.wf s.host.mem = true

/-- What a turn from b that would lead to t comes to (R434): t, unless it merges at L2 into a line that the host of either card may hold; then
BISnp goes out for those lines, and nothing else is done but `wait`. -/
def State.orHeld (b t : State) (wait : State → State) : State :=
  if b.heldBy t = [] ∧ b.swap.heldBy t.swap = [] then t else wait ((b.snoop (b.heldBy t)).swap.snoop (b.swap.heldBy t.swap)).swap

end Sys2Proof.Machine
end

