-- ==== Sys2Proof/Certificates/Slice0/Obligations.lean ====
section
/-! DEFINITION. The statements for the provers. -/

open Sys2Proof Sys2Proof.Machine

/-- R93, R19: every register form of the integer group but DIV and REM writes its result to xd and nothing else. -/
def Obligations.IntegerRegisterResults : Prop :=
  ∀ (s : State) (xd xa xb : BitVec 6) (u : Bool),
    let a := s.core.xr xa
    let b := s.core.xr xb
    let n := (b.extractLsb' 0 6).toNat
    let low : Bool := if u then decide (a.toNat ≤ b.toNat) else decide (a.toInt ≤ b.toInt)
    let high : Word := if u then (a.setWidth 128 * b.setWidth 128).extractLsb' 64 64 else (a.signExtend 128 * b.signExtend 128).extractLsb' 64 64
    let writes (i : Instr) (v : Word) : Prop := ∃ t, exec i s = .next t ∧ s.WritesX t xd v 0#5
    writes (.add xd xa xb) (a + b) ∧
    writes (.sub xd xa xb) (a - b) ∧
    writes (.mul xd xa xb) (a * b) ∧
    writes (.mulh xd xa xb u) high ∧
    writes (.and xd xa xb) (a &&& b) ∧
    writes (.or xd xa xb) (a ||| b) ∧
    writes (.xor xd xa xb) (a ^^^ b) ∧
    writes (.andn xd xa xb) (a &&& ~~~b) ∧
    writes (.shl xd xa xb) (a <<< n) ∧
    writes (.shr xd xa xb) (a >>> n) ∧
    writes (.sar xd xa xb) (a.sshiftRight n) ∧
    writes (.min xd xa xb u) (if low then a else b) ∧
    writes (.max xd xa xb u) (if low then b else a) ∧
    ∀ cond : BitVec 4, cond.toNat ≤ 9 →
      (integerCondition cond a b → writes (.cmp xd xa xb cond) 1#64) ∧
      (¬integerCondition cond a b → writes (.cmp xd xa xb cond) 0#64)

/-- R94: DIV and REM truncate toward zero, the remainder has the sign of the dividend, and −2^63 by −1 wraps. R94, R310: a DIV or REM by 0 takes
the class-5 exception with detail 0x00 and writes nothing. -/
def Obligations.DivisionResults : Prop :=
  (∀ (s : State) (xd xa xb : BitVec 6), s.core.xr xb ≠ 0#64 →
    let a := s.core.xr xa
    let b := s.core.xr xb
    let writes (i : Instr) (v : Word) : Prop := ∃ t, exec i s = .next t ∧ s.WritesX t xd v 0#5
    writes (.div xd xa xb true) (BitVec.ofNat 64 (a.toNat / b.toNat)) ∧
    writes (.rem xd xa xb true) (BitVec.ofNat 64 (a.toNat % b.toNat)) ∧
    writes (.div xd xa xb false) (BitVec.ofInt 64 (a.toInt.tdiv b.toInt)) ∧
    writes (.rem xd xa xb false) (BitVec.ofInt 64 (a.toInt.tmod b.toInt))) ∧
  (∀ (s : State) (xd xa xb : BitVec 6) (u : Bool), s.core.xr xb = 0#64 →
    exec (.div xd xa xb u) s = .next (s.enter ⟨5, 0, 0#64, 0x14#64⟩) ∧
    exec (.rem xd xa xb u) s = .next (s.enter ⟨5, 0, 0#64, 0x15#64⟩))

/-- R96, R19: the immediate and one-operand forms of the integer group. R96: CLZ, CTZ and POPC count bits; 64 for no one bit at all. -/
def Obligations.IntegerImmediateResults : Prop :=
  (∀ (s : State) (xd xa xb xc : BitVec 6) (imm : Word),
    let a := s.core.xr xa
    let writes (i : Instr) (v : Word) : Prop := ∃ t, exec i s = .next t ∧ s.WritesX t xd v 0#5
    writes (.addi xd xa imm) (a + imm) ∧
    writes (.muli xd xa imm) (a * imm) ∧
    writes (.andi xd xa imm) (a &&& imm) ∧
    writes (.ori xd xa imm) (a ||| imm) ∧
    writes (.xori xd xa imm) (a ^^^ imm) ∧
    writes (.movi xd imm) imm ∧
    writes (.sel xd xa xb xc) (if s.core.xr xc ≠ 0#64 then a else s.core.xr xb) ∧
    (imm.toNat ≤ 63 →
      writes (.shli xd xa imm) (a <<< imm.toNat) ∧
      writes (.shri xd xa imm) (a >>> imm.toNat) ∧
      writes (.sari xd xa imm) (a.sshiftRight imm.toNat)) ∧
    (∀ cond : BitVec 4, cond.toNat ≤ 9 →
      (integerCondition cond a imm → writes (.cmpi xd xa imm cond) 1#64) ∧
      (¬integerCondition cond a imm → writes (.cmpi xd xa imm cond) 0#64)) ∧
    (1 ≤ imm.toNat ∧ imm.toNat ≤ 64 →
      (∀ v : Word, (∀ i < 64, v.getLsbD i = a.getLsbD (min i (imm.toNat - 1))) → writes (.sext xd xa imm) v) ∧
      (∀ v : Word, (∀ i < 64, v.getLsbD i = (decide (i < imm.toNat) && a.getLsbD i)) → writes (.zext xd xa imm) v))) ∧
  (∀ (s : State) (xd xa : BitVec 6) (n : Nat),
    let a := s.core.xr xa
    let writes (i : Instr) (v : Word) : Prop := ∃ t, exec i s = .next t ∧ s.WritesX t xd v 0#5
    (n ≤ 64 ∧ (∀ i < n, a.getLsbD (63 - i) = false) ∧ (n < 64 → a.getLsbD (63 - n) = true) →
      writes (.clz xd xa) (BitVec.ofNat 64 n)) ∧
    (n ≤ 64 ∧ (∀ i < n, a.getLsbD i = false) ∧ (n < 64 → a.getLsbD n = true) → writes (.ctz xd xa) (BitVec.ofNat 64 n)) ∧
    writes (.popc xd xa) (BitVec.ofNat 64 ((List.range 64).filter fun i => a.getLsbD i).length))

/-- R97, R99, R103: FADD, FSUB, FMUL, FDIV, FFMA and FSQRT round their exact result once; when no raised exception is enabled they write it (an
FP32 result with bits [63:32] clear) and set the flags. What an overflow under Down and Up gives is the model's reading of R42's cell, log entry
47. R54, R103: a scalar FP instruction that raises an enabled exception takes the class-5 exception of the highest enabled one, with s.faddr 0
and nothing written. -/
def Obligations.FloatArithmeticResults : Prop :=
  (∀ (s : State) (xd xa xb xc : BitVec 6) (width : Bool) (rmode : BitVec 3), rmode.toNat ≤ 4 →
    let f := if width then fp64 else fp32
    let val (r : BitVec 6) : Val := decodeFloat f (if width then (s.core.xr r).toNat else (s.core.xr r).toNat % 2 ^ 32)
    let m := floatMode s rmode
    let down := decide (m = .down)
    let rounds (i : Instr) (r : Val × FpFlags) : Prop :=
      let o := roundVal f m false r.1
      (o.flags ||| r.2) &&& s.core.fptrap = 0#5 →
        ∃ t, exec i s = .next t ∧ s.WritesX t xd (BitVec.ofNat 64 o.code) (o.flags ||| r.2)
    rounds (.fadd xd xa xb width rmode) (addVal down (val xa) (val xb)) ∧
    rounds (.fsub xd xa xb width rmode) (addVal down (val xa) (val xb).negate) ∧
    rounds (.fmul xd xa xb width rmode) (mulVal (val xa) (val xb)) ∧
    rounds (.fdiv xd xa xb width rmode) (divVal (val xa) (val xb)) ∧
    rounds (.ffma xd xa xb xc width rmode) (fmaVal down (val xa) (val xb) (val xc)) ∧
    rounds (.fsqrt xd xa width rmode) (sqrtVal (val xa))) ∧
  (∀ (s : State) (xd xa xb xc : BitVec 6) (width : Bool) (rmode : BitVec 3) (d : Nat), rmode.toNat ≤ 4 → 1 ≤ d → d ≤ 5 →
    let f := if width then fp64 else fp32
    let val (r : BitVec 6) : Val := decodeFloat f (if width then (s.core.xr r).toNat else (s.core.xr r).toNat % 2 ^ 32)
    let m := floatMode s rmode
    let down := decide (m = .down)
    let traps (i : Instr) (op : Word) (r : Val × FpFlags) : Prop :=
      let fl := ((roundVal f m false r.1).flags ||| r.2) &&& s.core.fptrap
      fl.getLsbD (5 - d) = true → (∀ k < d, 1 ≤ k → fl.getLsbD (5 - k) = false) → exec i s = .next (s.enter ⟨5, d, 0#64, op⟩)
    traps (.fadd xd xa xb width rmode) 0x30#64 (addVal down (val xa) (val xb)) ∧
    traps (.fsub xd xa xb width rmode) 0x31#64 (addVal down (val xa) (val xb).negate) ∧
    traps (.ffma xd xa xb xc width rmode) 0x33#64 (fmaVal down (val xa) (val xb) (val xc)) ∧
    traps (.fmul xd xa xb width rmode) 0x32#64 (mulVal (val xa) (val xb)) ∧
    traps (.fdiv xd xa xb width rmode) 0x34#64 (divVal (val xa) (val xb)) ∧
    traps (.fsqrt xd xa width rmode) 0x35#64 (sqrtVal (val xa)))

/-- R100, R101: FMIN and FMAX take an operand's bits or the canonical NaN, FCMP writes 1 or 0; a signalling NaN, and any NaN for the ordering
conditions, raises invalid. R56, R97, R102: FCVT reads xa under stype and writes its value under dtype; an INT32 result is sign-extended. A
nonzero value that becomes the integer 0 is inexact and an underflow: the model's reading, log entry 48; what an overflow under Down and Up gives
to FP32 and FP64 is its reading of R42's cell, log entry 47. R54, R100, R101: FMIN, FMAX and FCMP raise only invalid; when it is enabled they
take the class-5 exception with detail 0x01 and write nothing. -/
def Obligations.FloatCompareConvertResults : Prop :=
  (∀ (s : State) (xd xa xb : BitVec 6) (width : Bool),
    let f := if width then fp64 else fp32
    let code (r : BitVec 6) : Word := if width then s.core.xr r else s.core.xr r &&& 0xFFFFFFFF#64
    let a := decodeFloat f (code xa).toNat
    let b := decodeFloat f (code xb).toNat
    let quiet : FpFlags := if a.isSnan || b.isSnan then flagInvalid else 0#5
    let loud : FpFlags := if a.isNan || b.isNan then flagInvalid else 0#5
    let writes (i : Instr) (v : Word) (fl : FpFlags) : Prop :=
      fl &&& s.core.fptrap = 0#5 → ∃ t, exec i s = .next t ∧ s.WritesX t xd v fl
    let pick (takeMin : Bool) (i : Instr) : Prop :=
      (a.isNan = true → b.isNan = true → writes i (if width then 0x7FF8000000000000#64 else 0x7FC00000#64) quiet) ∧
      (a.isNan = true → b.isNan = false → writes i (code xb) quiet) ∧
      (a.isNan = false → b.isNan = true → writes i (code xa) quiet) ∧
      (a.isNan = false → b.isNan = false → writes i (if leVal a b = takeMin then code xa else code xb) quiet)
    let ordered : Bool := !a.isNan && !b.isNan
    let compares (cond : BitVec 4) (v : Bool) (fl : FpFlags) : Prop :=
      writes (.fcmp xd xa xb width cond) (if v then 1#64 else 0#64) fl
    pick true (.fmin xd xa xb width) ∧ pick false (.fmax xd xa xb width) ∧
    compares 0#4 (ordered && eqVal a b) quiet ∧
    compares 1#4 (!(ordered && eqVal a b)) quiet ∧
    compares 2#4 (ordered && ltVal a b) loud ∧
    compares 3#4 (ordered && (eqVal a b || ltVal b a)) loud ∧
    compares 4#4 (ordered && (eqVal a b || ltVal a b)) loud ∧
    compares 5#4 (ordered && ltVal b a) loud ∧
    compares 10#4 (a.isNan || b.isNan) quiet) ∧
  (∀ (s : State) (xd xa : BitVec 6) (stype dtype rmode : BitVec 3), stype.toNat ≤ 3 → dtype.toNat ≤ 3 → rmode.toNat ≤ 4 →
    let x := s.core.xr xa
    let v : Val := match stype.toNat with
      | 0 => decodeFloat fp32 (x.toNat % 2 ^ 32)
      | 1 => decodeFloat fp64 x.toNat
      | 2 => ofInt (x.setWidth 32).toInt
      | _ => ofInt x.toInt
    let m := floatMode s rmode
    let r : Word × FpFlags := match dtype.toNat with
      | 0 => (BitVec.ofNat 64 (roundVal fp32 m false v).code, (roundVal fp32 m false v).flags)
      | 1 => (BitVec.ofNat 64 (roundVal fp64 m false v).code, (roundVal fp64 m false v).flags)
      | 2 => (BitVec.ofInt 64 (toIntRange m (-2 ^ 31) (2 ^ 31 - 1) v).1, (toIntRange m (-2 ^ 31) (2 ^ 31 - 1) v).2)
      | _ => (BitVec.ofInt 64 (toIntRange m (-2 ^ 63) (2 ^ 63 - 1) v).1, (toIntRange m (-2 ^ 63) (2 ^ 63 - 1) v).2)
    (r.2 &&& s.core.fptrap = 0#5 → ∃ t, exec (.fcvt xd xa stype dtype rmode) s = .next t ∧ s.WritesX t xd r.1 r.2) ∧
    ∀ d : Nat, 1 ≤ d → d ≤ 5 → (r.2 &&& s.core.fptrap).getLsbD (5 - d) = true →
      (∀ k < d, 1 ≤ k → (r.2 &&& s.core.fptrap).getLsbD (5 - k) = false) →
      exec (.fcvt xd xa stype dtype rmode) s = .next (s.enter ⟨5, d, 0#64, 0x39#64⟩)) ∧
  (∀ (s : State) (xd xa xb : BitVec 6) (width : Bool) (cond : BitVec 4), s.core.fptrap.getLsbD 4 = true →
    let f := if width then fp64 else fp32
    let val (r : BitVec 6) : Val := decodeFloat f (if width then (s.core.xr r).toNat else (s.core.xr r).toNat % 2 ^ 32)
    let quiet : Prop := (val xa).isSnan = true ∨ (val xb).isSnan = true
    let loud : Prop := (val xa).isNan = true ∨ (val xb).isNan = true
    (quiet → exec (.fmin xd xa xb width) s = .next (s.enter ⟨5, 1, 0#64, 0x36#64⟩) ∧
      exec (.fmax xd xa xb width) s = .next (s.enter ⟨5, 1, 0#64, 0x37#64⟩)) ∧
    (quiet → cond ∈ [0#4, 1#4, 10#4] → exec (.fcmp xd xa xb width cond) s = .next (s.enter ⟨5, 1, 0#64, 0x38#64⟩)) ∧
    (loud → cond ∈ [2#4, 3#4, 4#4, 5#4] → exec (.fcmp xd xa xb width cond) s = .next (s.enter ⟨5, 1, 0#64, 0x38#64⟩)))

/-- R41, R54, R56: a finite value of a format rounds to itself in that format under every mode, and raises nothing; any other value up to the
largest finite magnitude rounds to the neighbour that the mode names, on a tie to the even one, and is inexact, and below the smallest normal an
underflow; beyond that magnitude it rounds to it, or overflows (the value of an overflow under Down and Up: the model's reading of R42's cell,
log entry 47). -/
def Obligations.RepresentableRoundsToItself : Prop :=
  ∀ (f : FloatFmt) (m : Mode) (inf : Bool), f ∈ [fp64, fp32, fp16, bf16, fa48, e5m2, e4m3, e2m1] →
    (∀ b < 2 * f.signBit, (∃ n p d, decodeFloat f b = .fin n p d) → roundVal f m inf (decodeFloat f b) = ⟨b, 0#5⟩) ∧
    ∀ (neg : Bool) (n d : Nat) (big below tiny : ℚ), 0 < d → codeIs f f.maxBits big → codeIs f (f.maxBits - 1) below →
      codeIs f (2 ^ f.fbits) tiny →
      let v := signedRatio neg n d
      let r := roundVal f m inf (.fin neg n d)
      (|v| ≤ big → ∃ x, codeIs f r.code x ∧ (f.signBit ≤ r.code ↔ neg = true) ∧
        r.flags = (if x = v then 0#5 else if |x| < tiny then flagInexact ||| flagUnderflow else flagInexact) ∧
        (m = .down → x ≤ v ∧ ∀ b y, codeIs f b y → y ≤ v → y ≤ x) ∧
        (m = .up → v ≤ x ∧ ∀ b y, codeIs f b y → v ≤ y → x ≤ y) ∧
        (m = .zero → |x| ≤ |v| ∧ ∀ b y, codeIs f b y → |y| ≤ |v| → |y| ≤ |x|) ∧
        (m = .nearest → ∀ b y, codeIs f b y → |x - v| ≤ |y - v| ∧ (|x - v| = |y - v| → y ≠ x → r.code % 2 = 0))) ∧
      (big < |v| →
        let next := big + (big - below)
        let keeps : Prop := match m with
          | .nearest => |v| < (big + next) / 2 ∨ (|v| = (big + next) / 2 ∧ f.maxBits % 2 = 0)
          | .zero => |v| < next
          | .down => neg = false ∧ |v| < next
          | .up => neg = true ∧ |v| < next
          | .stochastic _ => False
        (keeps → r = ⟨(if neg then f.signBit else 0) + f.maxBits, flagInexact⟩) ∧
        (¬keeps → (∀ k, m ≠ .stochastic k) → r = ⟨overflowCode f neg m inf, flagOverflow ||| flagInexact⟩))

/-- R64, R68, R106-R108: direct targets are L + 64·imm64 + 12·tslot, register targets stand in xa; a transfer whose target passes the checks
arrives there, a branch not taken goes on, a call writes the next PC to x62, and LOOP counts xa down. A target whose line is at the peer while
the bridge is down is arrived at unchecked: the model's reading, log entry 61. R64, R106, R385: a transfer that is taken to a target that is no
valid PC, or whose tmask bit is 0, takes the class-1 exception with detail 0x04 and the target in s.faddr; one to a line that its page or an
object does not let the strand fetch takes class 3 with that detail; LOOP then leaves its counter, and a call x62. -/
def Obligations.BranchResults : Prop :=
  (∀ (s : State) (xa xb k : BitVec 6) (cond : BitVec 4) (tslot : BitVec 3) (imm : Word), tslot.toNat ≤ 4 → cond.toNat ≤ 9 →
    let a := s.core.xr xa
    let direct := s.core.pc - BitVec.ofNat 64 (s.core.pc.toNat % 64) + 64#64 * imm + 12#64 * tslot.setWidth 64
    let goes (i : Instr) (op target : Word) (xd : BitVec 6) (v : Word) : Prop :=
      (canEnter s op target → exec i s = .next (arrives s target xd v)) ∧
      (validPc target = true → s.fetchFault target op = none → s.lineLost (lineOf target).toNat = true →
        exec i s = .next { s with core := (s.core.setX xd v).leave target })
    let falls (i : Instr) : Prop := exec i s = .next s.retire
    (integerCondition cond a (s.core.xr xb) → goes (.br xa xb cond tslot imm) 0x40#64 direct 0#6 0#64) ∧
    (¬integerCondition cond a (s.core.xr xb) → falls (.br xa xb cond tslot imm)) ∧
    (integerCondition cond a (k.signExtend 64) → goes (.bri xa k cond tslot imm) 0x41#64 direct 0#6 0#64) ∧
    (¬integerCondition cond a (k.signExtend 64) → falls (.bri xa k cond tslot imm)) ∧
    goes (.jmp tslot imm) 0x42#64 direct 0#6 0#64 ∧
    goes (.jmpr xa) 0x43#64 a 0#6 0#64 ∧
    goes (.call tslot imm) 0x44#64 direct 62#6 (nextPc s.core.pc) ∧
    goes (.callr xa) 0x45#64 a 62#6 (nextPc s.core.pc) ∧
    (a ≠ 1#64 → goes (.loop xa tslot imm) 0x46#64 direct xa (a - 1#64)) ∧
    (a = 1#64 → ∃ t, exec (.loop xa tslot imm) s = .next t ∧ s.WritesX t xa 0#64 0#5)) ∧
  (∀ (s : State) (xa xb k : BitVec 6) (cond : BitVec 4) (tslot : BitVec 3) (imm : Word), cond.toNat ≤ 9 →
    let direct := s.core.pc - BitVec.ofNat 64 (s.core.pc.toNat % 64) + 64#64 * imm + 12#64 * tslot.setWidth 64
    let illegal (target : Word) : Prop :=
      validPc target = false ∨ (s.fetchFault target 0#64 = none ∧ s.lineLost (lineOf target).toNat = false ∧
        lparOk (lineWord (s.deliver (lineOf target).toNat).2) = true ∧
        (lineWord (s.deliver (lineOf target).toNat).2).getLsbD (pcOffset target / 12) = false)
    let traps (i : Instr) (target op : Word) : Prop :=
      (illegal target → exec i s = .next (s.enter ⟨1, 4, target, op⟩)) ∧
      ∀ d, validPc target = true →
        s.checkAccess .fetch s.core.asid.toNat s.core.colour.toNat s.core.supervisor (lineOf target).toNat = some d →
        exec i s = .next (s.enter ⟨3, d, target, op⟩)
    (integerCondition cond (s.core.xr xa) (s.core.xr xb) → traps (.br xa xb cond tslot imm) direct 0x40#64) ∧
    (integerCondition cond (s.core.xr xa) (k.signExtend 64) → traps (.bri xa k cond tslot imm) direct 0x41#64) ∧
    (s.core.xr xa ≠ 1#64 → traps (.loop xa tslot imm) direct 0x46#64) ∧
    traps (.jmp tslot imm) direct 0x42#64 ∧
    traps (.jmpr xa) (s.core.xr xa) 0x43#64 ∧ traps (.call tslot imm) direct 0x44#64 ∧ traps (.callr xa) (s.core.xr xa) 0x45#64)

/-- R61, R67, R71, R110, R111: NOP and hints only advance; CMPSK and CMPSKI annul the next n instructions when their condition holds, across the
end of a line, and nothing but the PC changes. -/
def Obligations.SequentialFlow : Prop :=
  ∀ (s : State) (xa xb : BitVec 6) (cond : BitVec 4) (skip : BitVec 2) (imm : Word) (h : BitVec 8) (payload : BitVec 88),
    validPc s.core.pc = true → cond.toNat ≤ 9 → skip ≠ 0#2 →
    let goes (i : Instr) (n : Nat) : Prop :=
      exec i s = .next { s with core := { s.core with pc := slotsOn s.core.pc n, waitFrom := none, waiting := none } }
    goes .nop 1 ∧ goes (.hint h payload) 1 ∧
    (integerCondition cond (s.core.xr xa) (s.core.xr xb) → goes (.cmpsk xa xb cond skip) (skip.toNat + 1)) ∧
    (¬integerCondition cond (s.core.xr xa) (s.core.xr xb) → goes (.cmpsk xa xb cond skip) 1) ∧
    (integerCondition cond (s.core.xr xa) imm → goes (.cmpski xa cond skip imm) (skip.toNat + 1)) ∧
    (¬integerCondition cond (s.core.xr xa) imm → goes (.cmpski xa cond skip imm) 1)

/-- R115, R117: once no older access of the strand that it must follow is open, LD and LDA write the little-endian bytes at xa + imm, extended,
to xd: LD as the caches give them, which it fills, LDA from the coherence point of its scope, which it then acquires; both after the read-through
that REDs and collectives which have held the load call for (R124, R255). Which bytes LDA takes as the strand's own, and what becomes of copies
that it passes, is the model's reading of R117 beside R287 (log entry 44): a line that only other cores of its cluster have written goes home
first, once the host does not hold it. R280, R369, R371: what a load of a byte or the fetch of a line brings into the caches changes no register,
and no byte at its home while no cache has to make room for it (a line that leaves a cache goes to its home, R375), but for the hotness counters,
which are bytes of HBM (R391). -/
def Obligations.LoadResults : Prop :=
  (∀ (s : State) (xd xa : BitVec 6) (imm : Word) (size scope : BitVec 2) (sx : Bool),
    let ea := s.core.xr xa + imm
    let n := 2 ^ size.toNat
    let value (bytes : Nat → Byte) : Nat := ((List.range n).map fun i => (bytes (ea.toNat + i)).toNat * 256 ^ i).sum
    scalarAllowed s .load ea n → s.loadClear (ea.toNat, ea.toNat + n) = true →
      let r := s.readThrough
      let p := s.scopePoint scope.toNat ea.toNat
      let h := r.yieldLine p ea.toNat
      let u := (h.readAt p ea.toNat n).passCopies p ea.toNat
      (∃ t, exec (.ld xd xa imm size sx) s = .next t ∧
        (r.touchRange ea.toNat n).WritesX t xd (extended n sx (value r.peek)) 0#5) ∧
      (s.heldBy u = [] → ∃ t, exec (.lda xd xa imm size sx scope) s = .next t ∧
        (u.acquireAt scope.toNat).WritesX t xd (extended n sx (value (h.acquireByte scope.toNat))) 0#5) ∧
      ((s.core.waiting.map Wait.behind).getD [] = [] → r = s)) ∧
  (∀ (s : State) (va n line : Nat),
    (s.touch va n).core = { s.core with stash := (s.touch va n).core.stash } ∧
    (s.deliver line).1.core = { s.core with
      stash := (s.deliver line).1.core.stash, icache := (s.deliver line).1.core.icache, lineBuffer := (s.deliver line).1.core.lineBuffer } ∧
    ((∀ c ∈ s.card.clusters.toList, c.lines.length < 16) → (∀ k ∈ [s.card, s.peer], k.l2.length < 16 ∧ k.service.mappedOut = [] ∧ k.unitTlb = []) →
      s.card.combining = [] → line % 64 = 0 → va < 2 ^ 52 → line < 2 ^ 52 →
        let home (a : Nat) := s.homeOf s.core.asid.toNat s.core.colour.toNat a
        let inLine (a tag : Nat) : Prop := lineTag tag = tagOf s.core.asid.toNat (a - a % 128)
        let kept (a : Nat) (t : State) : Prop := ∀ tag pa, (∀ m r o, pa ≠ hotAddress m r o ∧ pa ≠ hotAddress m r o + 1) →
          ((inLine a tag → home (a - a % 128 + tag % 128) = some (.local pa)) → t.card.homeByte tag pa = s.card.homeByte tag pa) ∧
          ((inLine a tag → home (a - a % 128 + tag % 128) = some (.peer pa)) → t.peer.homeByte tag pa = s.peer.homeByte tag pa)
        kept va (s.touch va n) ∧ kept line (s.deliver line).1))

/-- R115, R147: ST retires into the store drain, when that has room, with the low bytes of xd and the home that its check found; no register and
no byte of memory changes until the drain performs it. R118, R147: STL makes the release of its scope, once nothing that it must follow is
unperformed, and enters the store drain with that scope, at whose coherence point its store performs. -/
def Obligations.StoreResults : Prop :=
  (∀ (s : State) (xd xa : BitVec 6) (imm : Word) (size : BitVec 2) (l : Leaf),
    let ea := s.core.xr xa + imm
    let n := 2 ^ size.toNat
    let bytes := (List.range n).map fun i => (s.core.xr xd).extractLsb' (8 * i) 8
    scalarAllowed s .store ea n → s.storeClear (ea.toNat, ea.toNat + n) = true →
    (s.core.drain.filter fun e => !e.tile).length < 32 → s.card.translate s.core.asid.toNat s.core.colour.toNat ea.toNat = some l →
      exec (.st xd xa imm size) s = .next { s with core := { s.core with
        drain := s.core.drain ++ [⟨false, ea.toNat, ea.toNat + n, none, [⟨tagOf s.core.asid.toNat ea.toNat, l.target, bytes⟩]⟩]
        pc := nextPc s.core.pc, waitFrom := none, waiting := none } }) ∧
  (∀ (s : State) (xd xa : BitVec 6) (imm : Word) (size scope : BitVec 2) (l : Leaf),
    let ea := s.core.xr xa + imm
    let n := 2 ^ size.toNat
    let bytes := (List.range n).map fun i => (s.core.xr xd).extractLsb' (8 * i) 8
    let r := s.releaseAt scope.toNat
    scalarAllowed s .store ea n → s.storeClear (ea.toNat, ea.toNat + n) = true → s.releaseReady scope.toNat = true →
    (s.core.drain.filter fun e => !e.tile).length < 32 → s.releaseHeld scope.toNat = [] →
    r.card.translate r.core.asid.toNat r.core.colour.toNat ea.toNat = some l →
      exec (.stl xd xa imm size scope) s = .next { r with core := { r.core with
        drain := r.core.drain ++
          [⟨false, ea.toNat, ea.toNat + n, some scope.toNat, [⟨tagOf r.core.asid.toNat ea.toNat, l.target, bytes⟩]⟩]
        pc := nextPc r.core.pc, waitFrom := none, waiting := none } })

/-- R119-R121: an atomic of 4 or 8 bytes reads the old value at the coherence point of its scope (SYSTEM for peer and host memory), writes the
new one there, once every older store has performed (R116), after the release under .REL and before the acquire under .ACQ, and writes the old
value to xd. -/
def Obligations.AtomicResults : Prop :=
  ∀ (s : State) (xd xa xb xc : BitVec 6) (size scope : BitVec 2) (acq rel u : Bool),
    let ea := s.core.xr xa
    let n := 2 ^ size.toNat
    let sc := if s.isRemote s.core.asid.toNat s.core.colour.toNat ea.toNat then 3 else scope.toNat
    let b := (s.core.xr xb).toNat % 2 ^ (8 * n)
    let released := if rel then s.releaseAt sc else s
    let does (i : Instr) (k : Nat) (zero : Bool) : Prop :=
      let r := released.modifyAt sc ea.toNat n fun v => atomicNew (8 * n) k u (s.core.xr xc).toNat v b
      let u := if acq then r.2.acquireAt sc else r.2
      s.heldBy u = [] → ∃ t, exec i s = .next t ∧ u.WritesX t xd (extended n (!zero) r.1) 0#5
    2 ≤ size.toNat → scalarAllowed s .atomic ea n → s.drained = true → s.ownUpdates = [] →
    s.loadClear (ea.toNat, ea.toNat + n) = true → s.storeClear (ea.toNat, ea.toNat + n) = true →
    (rel = true → s.releaseReady sc = true) →
      does (.aadd xd xa xb size scope acq rel) 0 false ∧
      does (.amin xd xa xb size scope acq rel u) 1 u ∧
      does (.amax xd xa xb size scope acq rel u) 2 u ∧
      does (.aand xd xa xb size scope acq rel) 3 false ∧
      does (.aor xd xa xb size scope acq rel) 4 false ∧
      does (.axor xd xa xb size scope acq rel) 5 false ∧
      does (.aswp xd xa xb size scope acq rel) 6 false ∧
      does (.acas xd xa xb xc size scope acq rel) 7 false

/-- R114, R123: an address at or above 2^52 is class 4 detail 0x01, a misaligned one class 4 detail 0x00, an access that its page or an object
denies class 3; s.faddr is the address, s.finfo names xd and the opcode. RED checks its page only in a stash window or the aperture. A load or an
atomic whose page is at the peer while the bridge is down is class 11 detail 0x00 at its line (R443). That RED needs store permission there is
the model's reading (log entry 29), and which detail of class 3 stands first its choice (log entry 45). -/
def Obligations.ScalarAddressTraps : Prop :=
  ∀ (s : State) (xd xa xb xc : BitVec 6) (imm : Word) (size scope op type : BitVec 2) (sx acq rel u : Bool),
    let n := 2 ^ size.toNat
    let traps (i : Instr) (a : Access) (ea op : Word) : Prop :=
      let info := xd.setWidth 64 <<< 8 ||| op
      (2 ^ 52 ≤ ea.toNat → exec i s = .next (s.enter ⟨4, 1, ea, info⟩)) ∧
      (ea.toNat < 2 ^ 52 → ea.toNat % n ≠ 0 → exec i s = .next (s.enter ⟨4, 0, ea, info⟩)) ∧
      (ea.toNat < 2 ^ 52 → ea.toNat % n = 0 → ∀ b d, s.accessFault a ea.toNat (ea.toNat + n) = some (b, d) →
        exec i s = .next (s.enter ⟨3, d, ea, info⟩)) ∧
      (a ≠ .store → ea.toNat < 2 ^ 52 → ea.toNat % n = 0 → s.accessFault a ea.toNat (ea.toNat + n) = none →
        s.bridgeFault ea.toNat (ea.toNat + n) ≠ none →
        exec i s = .next (s.enter ⟨11, 0, ea - BitVec.ofNat 64 (ea.toNat % 128), info⟩))
    let e := s.core.xr xa + imm
    let f := s.core.xr xa
    let red (x : Exc) : Prop := exec (.red xa xb scope op type) s = .next (s.enter x)
    let w := if type = 1#2 then 8 else 4
    (2 ^ 52 ≤ f.toNat → red ⟨4, 1, f, 0x5C#64⟩) ∧
    (f.toNat < 2 ^ 52 → f.toNat % w ≠ 0 → red ⟨4, 0, f, 0x5C#64⟩) ∧
    (f.toNat < 2 ^ 52 → f.toNat % w = 0 → s.inStash f.toNat = true → ∀ b d, s.accessFault .store f.toNat (f.toNat + w) = some (b, d) →
      red ⟨3, d, f, 0x5C#64⟩) ∧
    (f.toNat < 2 ^ 52 → f.toNat % w = 0 → s.inStash f.toNat = false → s.readonlyByte f.toNat (f.toNat + w) ≠ none → red ⟨3, 6, f, 0x5C#64⟩) ∧
    traps (.ld xd xa imm size sx) .load e 0x50#64 ∧
    traps (.st xd xa imm size) .store e 0x51#64 ∧
    traps (.lda xd xa imm size sx scope) .load e 0x52#64 ∧
    traps (.stl xd xa imm size scope) .store e 0x53#64 ∧
    traps (.aadd xd xa xb size scope acq rel) .atomic f 0x54#64 ∧
    traps (.amin xd xa xb size scope acq rel u) .atomic f 0x55#64 ∧
    traps (.amax xd xa xb size scope acq rel u) .atomic f 0x56#64 ∧
    traps (.aand xd xa xb size scope acq rel) .atomic f 0x57#64 ∧
    traps (.aor xd xa xb size scope acq rel) .atomic f 0x58#64 ∧
    traps (.axor xd xa xb size scope acq rel) .atomic f 0x59#64 ∧
    traps (.aswp xd xa xb size scope acq rel) .atomic f 0x5A#64 ∧
    traps (.acas xd xa xb xc size scope acq rel) .atomic f 0x5B#64

/-- R127, R132, R134, R35: TLD and TLDX write td with the record of hN, fmt and quant and the bytes of its rows, which the caches take; the
unused bytes of FA48 containers become 0 (DEDUCED, log entry 51). R133, R134, R147: TST and TSTX put the rows of ts into the store drain, when
that has room, and change nothing else. R129, R133-R135: what TLD, TLDX, TST and TSTX trap on, in order: the records of their tiles, class 2;
pitch and indexes, class 4 details 0x02 and 0x04; the address range 0x01, alignment 0x00, the bound 0x03; the first byte that its page or an
object denies, class 3; a row at the peer while the bridge is down, class 11 (R443). Role and tile of a bad pitch, its s.faddr, and a lo of 2^64
or more are the model's choice, log entry 52; which detail of class 3 stands first, log entry 45. -/
def Obligations.TileMemoryResults : Prop :=
  (∀ (s : State) (td fmt : BitVec 5) (shape : BitVec 3) (xbase xstride xbound xpb ti : BitVec 6) (quant : BitVec 4) (imm : BitVec 32)
    (lo hi : Int),
    let rows := s.core.hRows shape
    let rb := s.core.hRowbytes shape
    let loads (i : Instr) (addr : Nat → Int) : Prop :=
      let r := s.readThrough
      let u := (List.range rows).foldl (fun u m => u.touchRange (addr m).toNat rb) r
      let byte (m i : Nat) : Byte := if fmt = 13#5 ∧ 6 ≤ i % 8 then 0#8 else r.peek ((addr m).toNat + i)
      exec i s = .next { u with core := (u.core.setT td
        ⟨rows, rb, fmt, quant, (List.range rows).map fun m => (List.range rb).map (byte m)⟩).leave (nextPc u.core.pc) }
    let strided := stridedRow s xbase xstride imm
    let indexed := indexedRow s xbase xpb imm (ti.setWidth 5)
    0 < rows → rb % elemBytes fmt = 0 → s.loadClear (lo.toNat, hi.toNat) = true →
      (tilesAllowed s [td] → boundingBox rows rb lo hi strided →
        (xbound ≠ 0#6 → (s.core.xr xbase).toNat ≤ lo ∧ hi ≤ (s.core.xr xbase).toNat + (s.core.xr xbound).toNat) →
        rowsAllowed s .load rows rb (elemBytes fmt) lo hi strided →
        loads (.tld td shape fmt xbase xstride xbound quant imm) strided) ∧
      (tilesAllowed s [td, ti.setWidth 5] → indexAllowed s xpb (ti.setWidth 5) fmt rows rb →
        lo = (s.core.xr xbase).toNat + imm.toInt →
        hi = lo + ((s.core.xr xpb).extractLsb' 0 32).toNat * ((s.core.xr xpb).extractLsb' 32 32).toNat →
        rowsAllowed s .load rows rb (elemBytes fmt) lo hi indexed →
        loads (.tldx td shape fmt xbase xpb ti quant imm) indexed)) ∧
  (∀ (s : State) (ts fmt : BitVec 5) (shape : BitVec 3) (xbase xstride xbound xpb ti : BitVec 6) (imm : BitVec 32) (lo hi : Int),
    let t := s.core.tr ts
    let stores (i : Instr) (addr : Nat → Int) : Prop :=
      exec i s = .next { s with core := { s.core with
        drain := s.core.drain ++ [⟨true, lo.toNat, hi.toNat, none,
          (List.range t.rows).flatMap fun m => s.pieces (addr m).toNat (t.data.getD m [])⟩]
        pc := nextPc s.core.pc, waitFrom := none, waiting := none } }
    let strided := stridedRow s xbase xstride imm
    let indexed := indexedRow s xbase xpb imm (ti.setWidth 5)
    t.rows ≠ 0 → t.data.length = t.rows → t.fmt = fmt → t.rows = s.core.hRows shape → t.rowbytes = s.core.hRowbytes shape →
    s.readonlyByte lo.toNat hi.toNat = none →
    s.storeClear (lo.toNat, hi.toNat) = true → (s.core.drain.filter DrainEntry.tile).length < 4 →
      (tilesAllowed s [ts] → boundingBox t.rows t.rowbytes lo hi strided →
        (xbound ≠ 0#6 → (s.core.xr xbase).toNat ≤ lo ∧ hi ≤ (s.core.xr xbase).toNat + (s.core.xr xbound).toNat) →
        rowsAllowed s .store t.rows t.rowbytes (elemBytes fmt) lo hi strided →
        stores (.tst ts shape fmt xbase xstride xbound imm) strided) ∧
      (tilesAllowed s [ts, ti.setWidth 5] → indexAllowed s xpb (ti.setWidth 5) fmt t.rows t.rowbytes →
        lo = (s.core.xr xbase).toNat + imm.toInt →
        hi = lo + ((s.core.xr xpb).extractLsb' 0 32).toNat * ((s.core.xr xpb).extractLsb' 32 32).toNat →
        rowsAllowed s .store t.rows t.rowbytes (elemBytes fmt) lo hi indexed →
        stores (.tstx ts shape fmt xbase xpb ti imm) indexed)) ∧
  (∀ (s : State) (td fmt : BitVec 5) (shape : BitVec 3) (xbase xstride xbound xpb ti : BitVec 6) (quant : BitVec 4) (imm : BitVec 32)
    (lo hi : Int),
    let t := s.core.tr td
    let x := s.core.tr (ti.setWidth 5)
    let rows := s.core.hRows shape
    let rb := s.core.hRowbytes shape
    let base : Int := (s.core.xr xbase).toNat + imm.toInt
    let p := ((s.core.xr xpb).extractLsb' 0 32).toNat
    let n := ((s.core.xr xpb).extractLsb' 32 32).toNat
    let e := elemBytes fmt
    let word (v : Int) : Word := BitVec.ofInt 64 v
    let own (row op : Nat) : Word := faultInfo row 1 0 td.toNat op
    let other (row op : Nat) : Word := faultInfo row 1 4 (ti.setWidth 5 : BitVec 5).toNat op
    let source (op : Nat) : List (Prop × Exc) :=
      [(t.rows = 0, ⟨2, 0, 0#64, own 0 op⟩), (t.fmt ≠ fmt, ⟨2, 1, 0#64, own 0 op⟩), (t.rows ≠ rows, ⟨2, 2, 0#64, own 0 op⟩),
       (t.rowbytes ≠ rb, ⟨2, 3, 0#64, own 0 op⟩)]
    let index (op : Nat) : List (Prop × Exc) :=
      [(x.rows = 0, ⟨2, 0, 0#64, other 0 op⟩), (x.fmt ≠ 10#5, ⟨2, 1, 0#64, other 0 op⟩),
       (x.rows * (x.rowbytes / 4) < rows, ⟨2, 7, 0#64, other 0 op⟩)]
    let made (op : Nat) : List (Prop × Exc) := [(rb % e ≠ 0, ⟨2, 5, 0#64, own 0 op⟩)]
    let pitch (op : Nat) : List (Prop × Exc) := [(p < rb ∨ p % e ≠ 0, ⟨4, 2, word base, own 0 op⟩)]
    let addressed (i : Instr) (a : Access) (op : Nat) (bound : Prop) (addr : Nat → Int) : Prop :=
      let denied (m : Nat) := s.accessFault a (addr m).toNat ((addr m).toNat + rb)
      let far (m : Nat) := s.bridgeFault (addr m).toNat ((addr m).toNat + rb)
      let traps (x : Exc) : Prop := exec i s = .next (s.enter x)
      s.trapsFirst i [(lo < 0 ∨ 2 ^ 52 < hi, ⟨4, 1, if lo < 0 then 0#64 else word lo, own 0 op⟩)]
        ((∀ m < rows, (∀ k < m, addr k % (e : Int) = 0) → addr m % (e : Int) ≠ 0 → traps ⟨4, 0, word (addr m), own m op⟩) ∧
          ((∀ m < rows, addr m % (e : Int) = 0) → s.trapsFirst i [(bound, ⟨4, 3, word lo, own 0 op⟩)]
            ((∀ m < rows, ∀ b d, (∀ k < m, denied k = none) → denied m = some (b, d) → traps ⟨3, d, BitVec.ofNat 64 b, own m op⟩) ∧
              ((∀ m < rows, denied m = none) →
                (a = .store → ∀ b, s.readonlyByte lo.toNat hi.toNat = some b → traps ⟨3, 6, BitVec.ofNat 64 b, own 0 op⟩) ∧
                (a = .load → ∀ m < rows, ∀ b, (∀ k < m, far k = none) → far m = some b →
                  traps ⟨11, 0, BitVec.ofNat 64 (b - b % 128), own m op⟩)))))
    let strided (i : Instr) (a : Access) (op : Nat) : Prop :=
      boundingBox rows rb lo hi (stridedRow s xbase xstride imm) →
        addressed i a op (xbound ≠ 0#6 ∧ ¬((s.core.xr xbase).toNat ≤ lo ∧ hi ≤ (s.core.xr xbase).toNat + (s.core.xr xbound).toNat))
          (stridedRow s xbase xstride imm)
    let indexed (i : Instr) (a : Access) (op : Nat) : Prop :=
      let k (m : Nat) := rowIndex s (ti.setWidth 5) m
      rows ≤ x.elems.flatten.length →
        (∀ m < rows, (∀ j < m, 0 ≤ k j ∧ k j < n) → ¬(0 ≤ k m ∧ k m < n) → exec i s = .next (s.enter ⟨4, 4, word base, other m op⟩)) ∧
        ((∀ m < rows, 0 ≤ k m ∧ k m < n) → lo = base → hi = base + p * n →
          addressed i a op False (indexedRow s xbase xpb imm (ti.setWidth 5)))
    (tilesAllowed s [td] →
      s.trapsFirst (.tld td shape fmt xbase xstride xbound quant imm) (made 0x60)
        (strided (.tld td shape fmt xbase xstride xbound quant imm) .load 0x60) ∧
      s.trapsFirst (.tst td shape fmt xbase xstride xbound imm) (source 0x61)
        (strided (.tst td shape fmt xbase xstride xbound imm) .store 0x61)) ∧
    (tilesAllowed s [td, ti.setWidth 5] →
      s.trapsFirst (.tldx td shape fmt xbase xpb ti quant imm) (index 0x62 ++ made 0x62 ++ pitch 0x62)
        (indexed (.tldx td shape fmt xbase xpb ti quant imm) .load 0x62) ∧
      s.trapsFirst (.tstx td shape fmt xbase xpb ti imm) (source 0x63 ++ index 0x63 ++ pitch 0x63)
        (indexed (.tstx td shape fmt xbase xpb ti imm) .store 0x63)))

/-- R137-R142, R35: the tile moves copy bits under the record that R127 gives; TSHR returns the record in the layout of R126. That TRESHAPE
writes 0 into the unused bits of FA48 containers (log entry 51) and keeps the bytes of SQ32 (log entry 50) is the model's choice. R20, R129,
R139, R140: what the tile moves trap on, in order: an empty tile, class 2 detail 0x00; another byte count in TRESHAPE, 0x06; a produced record of
broken elements, 0x05; an element index outside the tile, class 4 detail 0x05 with the index in s.faddr; the tile written is as before. That the
row of the index stands in s.finfo is the model's reading, log entry 31. -/
def Obligations.TileMoveResults : Prop :=
  (∀ (s : State) (td ta fmt : BitVec 5) (shape : BitVec 3) (quant : BitVec 4) (xs : BitVec 6) (imm : BitVec 32),
    let a := s.core.tr ta
    let rows := s.core.hRows shape
    let rb := s.core.hRowbytes shape
    let m := (imm.extractLsb' 8 6).toNat
    let n := (imm.extractLsb' 0 8).toNat
    let row := a.data.getD m []
    let writesT (i : Instr) (v : Tile) : Prop := ∃ t, exec i s = .next t ∧ s.WritesT t td v 0#5 false
    let writesX (i : Instr) (v : Word) : Prop := ∃ t, exec i s = .next t ∧ s.WritesX t xs v 0#5
    (tilesAllowed s [td] → rb % elemBytes fmt = 0 →
      writesT (.tzero td shape fmt quant) ⟨rows, rb, fmt, quant, List.replicate rows (List.replicate rb 0#8)⟩ ∧
      writesT (.tfill td shape fmt quant xs) (tileOf rows rb fmt quant fun _ _ => putElem fmt (s.core.xr xs))) ∧
    (tilesAllowed s [td, ta] → a.rows ≠ 0 → a.fmt.toNat ≤ 14 →
      writesT (.tmov td ta) a ∧
      (imm.toNat < 2 ^ 14 → m < a.rows → n < a.count →
        let v := putElem a.fmt (s.core.xr xs)
        let w := elemBytes a.fmt
        let moved := if a.fmt = 7#5 then packRow 7#5 ((rowElems 7#5 row).set n v) else row.take (n * w) ++ toBytes w v ++ row.drop ((n + 1) * w)
        writesT (.tmovs td ta xs imm) { a with data := a.data.set m moved }) ∧
      (rows * rb = a.rows * a.rowbytes → rb % elemBytes fmt = 0 →
        writesT (.treshape td ta shape fmt quant) ⟨rows, rb, fmt, quant, (chunks rb a.data.flatten).map (cleanRow fmt)⟩)) ∧
    (tilesAllowed s [ta] →
      writesX (.tshr ta xs) (BitVec.ofNat 64 (a.quant.toNat * 2 ^ 20 + a.fmt.toNat * 2 ^ 15 + a.rowbytes * 2 ^ 7 + a.rows)) ∧
      (a.rows ≠ 0 → a.fmt.toNat ≤ 14 → imm.toNat < 2 ^ 14 → m < a.rows → n < a.count →
        writesX (.tmovx ta xs imm) (getElem a.fmt (a.el m n))))) ∧
  (∀ (s : State) (td ta fmt : BitVec 5) (shape : BitVec 3) (quant : BitVec 4) (xs : BitVec 6) (imm : BitVec 32), tilesAllowed s [td, ta] →
    let a := s.core.tr ta
    let rb := s.core.hRowbytes shape
    let x (d role reg op : Nat) : Exc := ⟨2, d, 0#64, faultInfo 0 4 role reg op⟩
    let made (op : Nat) : List (Prop × Exc) := [(rb % elemBytes fmt ≠ 0, x 5 0 td.toNat op)]
    let source (op : Nat) : List (Prop × Exc) := [(a.rows = 0, x 0 1 ta.toNat op), (14 < a.fmt.toNat, x 1 1 ta.toNat op)]
    let index (op : Nat) : List (Prop × Exc) := [(a.rows ≤ imm.toNat / 256 ∨ a.count ≤ imm.toNat % 256,
      ⟨4, 5, imm.setWidth 64, faultInfo (imm.toNat / 256 % 64) 4 1 ta.toNat op⟩)]
    s.trapsFirst (.tzero td shape fmt quant) (made 0x64) True ∧ s.trapsFirst (.tfill td shape fmt quant xs) (made 0x65) True ∧
    s.trapsFirst (.tmov td ta) (source 0x66) True ∧ s.trapsFirst (.tmovx ta xs imm) (source 0x67 ++ index 0x67) True ∧
    s.trapsFirst (.tmovs td ta xs imm) (source 0x68 ++ index 0x68) True ∧
    s.trapsFirst (.treshape td ta shape fmt quant) (source 0x6A ++
      [(s.core.hRows shape * rb ≠ a.rows * a.rowbytes, x 6 0 td.toNat 0x6A)] ++ made 0x6A) True ∧
    ∀ x r, (s.enter x).core.tr r = s.core.tr r)

/-- R161, R165-R168: MPIN copies ta, with the companion of an E2M1 tile, into a pin; WDRAIN copies it out; MZERO and MACCLD write an accumulator.
That WDRAIN.SC of a pin without a companion gives the empty tile is the model's choice, log entry 28. R165, R178: MDRAIN converts a block of the
accumulator, divided by the scale, into td, and copies the bits of FA48; .AMAX then raises the quant register's amax; the accumulator stays. The
row of an enabled exception in s.finfo, and the underflow of a nonzero element that an integer format rounds to 0, are the model's readings, log
entries 31 and 48. -/
def Obligations.AccumulatorResults : Prop :=
  (∀ (s : State) (td ta tb : BitVec 5) (pin : BitVec 2) (acc : BitVec 3) (imm : BitVec 32) (z : Bool),
    let a := s.core.tr ta
    let b := s.core.tr tb
    let p := s.core.wr pin
    let sup := s.core.supervisor = true
    let pinOk := sup ∨ pin.toNat < s.core.limits.pins
    let accOk := sup ∨ acc.toNat < s.core.limits.acc
    let col := (imm.extractLsb' 0 6).toNat
    let row := (imm.extractLsb' 8 6).toNat
    s.core.kind = .compute →
      (tilesAllowed s [ta, tb] → pinOk → a.rows ≠ 0 →
        ((a.fmt ∈ [2#5, 3#5, 4#5, 5#5, 6#5, 8#5, 9#5] ∧ tb = 0#5) ∨
          (a.fmt = 7#5 ∧ b.rows = a.rows ∧ b.fmt = 14#5 ∧ b.rowbytes * 16 = a.rowbytes ∧ (a.rowbytes = 64 ∨ a.rowbytes = 128))) →
        ∃ t, exec (.mpin pin ta tb) s = .next t ∧
          (∀ r, t.core.wr r = if r = pin then ⟨a, if a.fmt = 7#5 then b else Tile.empty⟩ else s.core.wr r) ∧
          t = { s with core := { s.core with
            w := t.core.w, dirtyW := s.core.dirtyW ||| 1#4 <<< pin.toNat, pc := nextPc s.core.pc, waitFrom := none, waiting := none } }) ∧
      (tilesAllowed s [td] → pinOk →
        (∃ t, exec (.wdrain td pin 0#4) s = .next t ∧ s.WritesT t td (if p.tile.rows = 0 then Tile.empty else p.tile) 0#5 false) ∧
        (∃ t, exec (.wdrain td pin 1#4) s = .next t ∧
          s.WritesT t td (if p.tile.rows ≠ 0 ∧ p.tile.fmt = 7#5 then p.scales else Tile.empty) 0#5 false)) ∧
      (accOk →
        (∃ t, exec (.mzero acc) s = .next t ∧ s.WritesA t acc Acc.zero) ∧
        (tilesAllowed s [ta] → a.rows ≠ 0 → a.fmt ∈ [2#5, 3#5, 4#5, 5#5, 6#5, 13#5] → row + a.rows ≤ 64 → col + a.count ≤ 64 →
          ∃ t, exec (.maccld acc ta imm z) s = .next t ∧ s.WritesA t acc ((List.range 64).map fun i => (List.range 64).map fun j =>
            if row ≤ i ∧ i < row + a.rows ∧ col ≤ j ∧ j < col + a.count then
              if a.fmt = 13#5 then BitVec.ofNat 48 (a.el (i - row) (j - col))
              else BitVec.ofNat 48 (roundVal fa48 .nearest false (elemVal a.fmt (a.el (i - row) (j - col)))).code
            else if z then 0#48 else ((s.core.ar acc).getD i []).getD j 0#48)))) ∧
  (∀ (s : State) (td : BitVec 5) (acc shape : BitVec 3) (fmt : BitVec 5) (quant : BitVec 4) (imm : BitVec 32) (rnd : BitVec 2) (inf : Bool),
    let rows := s.core.hRows shape
    let rb := s.core.hRowbytes shape
    let cols := elemCount fmt rb
    let col := (imm.extractLsb' 0 6).toNat
    let row := (imm.extractLsb' 8 6).toNat
    let x (m n : Nat) : Nat := (((s.core.ar acc).getD (row + m) []).getD (col + n) 0#48).toNat
    let values := ((List.range rows).map fun m => (List.range cols).map fun n => decodeFloat fa48 (x m n)).flatten
    let g (f : FloatFmt) (m n : Nat) : Nat × FpFlags :=
      rounded s f rnd inf m n (divScale (decodeFloat fa48 (x m n)) (s.core.qScale quant), 0#5)
    tilesAllowed s [td] → s.core.kind = .compute → (s.core.supervisor = true ∨ acc.toNat < s.core.limits.acc) →
    rb % elemBytes fmt = 0 → row + rows ≤ 64 → col + cols ≤ 64 →
      (fmt = 13#5 → vectorWrites s (.mdrain td acc shape fmt 0#4 imm 0#2 false false) td rows rb fmt 0#4 false fun m n => (x m n, 0#5)) ∧
      (scaleOk (s.core.qScale quant) = true → rnd.toNat ≤ 1 → ∀ f, (fmt, f) ∈ [(2#5, fp32), (3#5, fp16), (4#5, bf16), (5#5, e4m3), (6#5, e5m2)] →
        vectorWrites s (.mdrain td acc shape fmt quant imm rnd inf false) td rows rb fmt quant (rnd == 1#2) (g f) ∧
        vectorEffect s (.mdrain td acc shape fmt quant imm rnd inf true) td rows rb fmt quant (rnd == 1#2) (g f) (raisesAmax quant values)))

/-- R49, R50, R159-R164: MMA, MMAT and MOPA add a term to every element of their block, rows with rows, rows with columns and columns with
columns; the rest of the accumulator keeps its value, or is +0 under .Z, and no flag is set. R170, R169: the matrix group takes class 6 detail
0x00 on a core without matrix engines; MMA and MMAT detail 0x01 for an accumulator and a pin of different engines; MMA, MMAT and MOPA detail 0x02
in supervisor mode. The engine in s.finfo is that of the accumulator, or of the pin of MPIN and WDRAIN; role and register, and affinity before
freezing, are the model's choices (log entries 30 and 49). R129, R51, R158-R166, R169: the faults of the matrix instructions on a core with the
engines, after those of class 6: a source that is empty (class 2 detail 0x00) or of another format (0x01), the pin, a nonzero tb of an operand
that is not E2M1 (class 1 detail 0x03), the pair (0x04), rows (0x02), bytes of a row (0x03), the produced record (0x05), a bad scale (class 5
detail 0x06); of two bad scales ta's comes first (the model's choice, log entry 64). -/
def Obligations.MatrixProductResults : Prop :=
  (∀ (s : State) (acc : BitVec 3) (pin : BitVec 2) (ta tb : BitVec 5) (z half : Bool),
    let a := s.core.tr ta
    let b := s.core.tr tb
    let p := (s.core.wr pin).tile
    let h := if half then 64 else 0
    let scaled (fmt : BitVec 5) (q : BitVec 4) : Prop := isB fmt = true → scaleOk (s.core.qScale q) = true
    let allowed (ts : List (BitVec 5)) : Prop :=
      s.core.kind = .compute ∧ s.core.supervisor = false ∧ (∀ t ∈ ts, t.toNat < s.core.limits.tiles) ∧ acc.toNat < s.core.limits.acc
    let pinned : Prop := pin.toNat < s.core.limits.pins ∧ acc.toNat % 2 = pin.toNat % 2 ∧ a.rows ≠ 0 ∧ p.rows ≠ 0 ∧ isMat a.fmt = true ∧
      matPair a.fmt p.fmt = true ∧ scaled a.fmt a.quant ∧ scaled a.fmt p.quant
    let adds (i : Instr) (rows cols k : Nat) (q : BitVec 4) (xs ys : Nat → List Val) : Prop :=
      ∃ t, exec i s = .next t ∧ s.WritesA t acc ((List.range 64).map fun m => (List.range 64).map fun n =>
        let old := if z then 0#48 else ((s.core.ar acc).getD m []).getD n 0#48
        if m < rows ∧ n < cols then termInto a.fmt k (s.core.qScale a.quant) (s.core.qScale q) old (products (xs m) (ys n)) else old)
    let value (t : Tile) (m n : Nat) : Val := ((matVals t []).getD m []).getD n (.fin false 0 1)
    (allowed [ta, tb] → pinned → a.count = p.count →
      ((a.fmt ≠ 7#5 ∧ tb = 0#5) ∨ (a.fmt = 7#5 ∧ b.rows = a.rows ∧ b.fmt = 14#5 ∧ b.rowbytes * 16 = a.rowbytes ∧
        (a.rowbytes = 64 ∨ a.rowbytes = 128))) →
      adds (.mma acc pin ta tb z) a.rows p.rows (if a.fmt = 2#5 then 5 else 6) p.quant (fun m => (matVals a b.data).getD m [])
        (fun n => (matVals p (s.core.wr pin).scales.data).getD n [])) ∧
    (allowed [ta] → pinned → p.fmt ≠ 7#5 → a.Shaped → p.Shaped → a.count = p.rows → h < p.count →
      adds (.mmat acc pin ta z half) a.rows (min 64 (p.count - h)) 6 p.quant (fun m => (List.range a.count).map fun k => value a m k)
        (fun n => (List.range p.rows).map fun k => value p k (h + n))) ∧
    (allowed [ta, tb] → a.rows ≠ 0 → b.rows = a.rows → a.Shaped → b.Shaped → isMat a.fmt = true → isMat b.fmt = true → a.fmt ≠ 7#5 →
      b.fmt ≠ 7#5 → matPair a.fmt b.fmt = true → a.count ≤ 64 → h < b.count → scaled a.fmt a.quant → scaled a.fmt b.quant →
      adds (.mopa acc ta tb z half) a.count (min 64 (b.count - h)) 6 b.quant (fun m => (List.range a.rows).map fun k => value a k m)
        (fun n => (List.range a.rows).map fun k => value b k (h + n)))) ∧
  (∀ (s : State) (acc shape : BitVec 3) (pin : BitVec 2) (td ta tb fmt : BitVec 5) (quant sel : BitVec 4) (imm : BitVec 32) (rnd : BitVec 2)
    (z half inf amax : Bool),
    let traps (i : Instr) (detail reg role tile op : Nat) : Prop :=
      exec i s = .next (s.enter ⟨6, detail, 0#64, BitVec.ofNat 64 ((2 + reg % 2) * 2 ^ 16 + role * 2 ^ 13 + tile * 2 ^ 8 + op)⟩)
    s.core.supervisor = true ∨ ((∀ t ∈ [td, ta, tb], t.toNat < s.core.limits.tiles) ∧ acc.toNat < s.core.limits.acc ∧
      pin.toNat < s.core.limits.pins) →
      (s.core.kind ≠ .compute →
        traps (.mpin pin ta tb) 0 pin.toNat 0 0 0x70 ∧ traps (.mma acc pin ta tb z) 0 acc.toNat 0 0 0x71 ∧
        traps (.mmat acc pin ta z half) 0 acc.toNat 0 0 0x72 ∧ traps (.mopa acc ta tb z half) 0 acc.toNat 0 0 0x73 ∧
        traps (.mdrain td acc shape fmt quant imm rnd inf amax) 0 acc.toNat 0 0 0x74 ∧ traps (.maccld acc ta imm z) 0 acc.toNat 0 0 0x75 ∧
        traps (.wdrain td pin sel) 0 pin.toNat 0 0 0x76 ∧ traps (.mzero acc) 0 acc.toNat 0 0 0x77) ∧
      (s.core.kind = .compute → acc.toNat % 2 ≠ pin.toNat % 2 →
        traps (.mma acc pin ta tb z) 1 acc.toNat 6 pin.toNat 0x71 ∧ traps (.mmat acc pin ta z half) 1 acc.toNat 6 pin.toNat 0x72) ∧
      (s.core.kind = .compute → s.core.supervisor = true →
        (acc.toNat % 2 = pin.toNat % 2 → traps (.mma acc pin ta tb z) 2 acc.toNat 0 0 0x71 ∧ traps (.mmat acc pin ta z half) 2 acc.toNat 0 0 0x72) ∧
        traps (.mopa acc ta tb z half) 2 acc.toNat 0 0 0x73)) ∧
  (∀ (s : State) (acc shape : BitVec 3) (pin : BitVec 2) (td ta tb fmt : BitVec 5) (quant : BitVec 4) (imm : BitVec 32) (rnd : BitVec 2)
    (z half inf amax : Bool),
    let a := s.core.tr ta
    let b := s.core.tr tb
    let p := (s.core.wr pin).tile
    let h := if half then 64 else 0
    let rb := s.core.hRowbytes shape
    let col := (imm.extractLsb' 0 6).toNat
    let row := (imm.extractLsb' 8 6).toNat
    let x (e cls d role reg op : Nat) : Exc := ⟨cls, d, 0#64, faultInfo 0 (2 + e % 2) role reg op⟩
    let mats : List (BitVec 5) := [2#5, 3#5, 4#5, 5#5, 6#5, 7#5, 8#5, 9#5]
    let read (e role : Nat) (reg : BitVec 5) (fs : List (BitVec 5)) (op : Nat) : List (Prop × Exc) :=
      [((s.core.tr reg).rows = 0, x e 2 0 role reg.toNat op), ((s.core.tr reg).fmt ∉ fs, x e 2 1 role reg.toNat op)]
    let only (g : Prop) (l : List (Prop × Exc)) : List (Prop × Exc) := l.map fun p => (g ∧ p.1, p.2)
    let companion (e op : Nat) : List (Prop × Exc) := only (a.fmt = 7#5)
      [(b.rows ≠ a.rows, x e 2 2 2 tb.toNat op), (a.rowbytes ≠ 64 ∧ a.rowbytes ≠ 128, x e 2 3 1 ta.toNat op),
       (b.rowbytes * 16 ≠ a.rowbytes, x e 2 3 2 tb.toNat op)]
    let blocks (e op : Nat) : List (Prop × Exc) := only (a.fmt = 7#5) (read e 2 tb [14#5] op)
    let spare (op : Nat) : List (Prop × Exc) := [(a.fmt ≠ 7#5 ∧ tb ≠ 0#5, ⟨1, 3, s.core.pc, BitVec.ofNat 64 op⟩)]
    let scaled (e : Nat) (q : BitVec 4) (role reg op : Nat) : List (Prop × Exc) :=
      [((a.fmt = 8#5 ∨ a.fmt = 9#5) ∧ scaleOk (s.core.qScale q) = false, x e 5 6 role reg op)]
    let e := acc.toNat
    let pairs (f : BitVec 5) (role reg op : Nat) : List (Prop × Exc) := [(matPair a.fmt f = false, x e 2 4 role reg op)]
    tilesAllowed s [td, ta, tb] → s.core.kind = .compute →
      s.core.supervisor = true ∨ (acc.toNat < s.core.limits.acc ∧ pin.toNat < s.core.limits.pins) →
      s.trapsFirst (.mpin pin ta tb) (read pin.toNat 1 ta mats 0x70 ++ blocks pin.toNat 0x70 ++ spare 0x70 ++ companion pin.toNat 0x70) True ∧
      (s.core.supervisor = false → acc.toNat % 2 = pin.toNat % 2 →
        s.trapsFirst (.mma acc pin ta tb z) (read e 1 ta mats 0x71 ++ blocks e 0x71 ++ [(p.rows = 0, x e 2 0 6 pin.toNat 0x71)] ++ spare 0x71 ++
          pairs p.fmt 6 pin.toNat 0x71 ++ [(a.count ≠ p.count, x e 2 3 1 ta.toNat 0x71)] ++ companion e 0x71 ++
          scaled e a.quant 1 ta.toNat 0x71 ++ scaled e p.quant 6 pin.toNat 0x71) True ∧
        s.trapsFirst (.mmat acc pin ta z half) (read e 1 ta mats 0x72 ++ [(p.rows = 0, x e 2 0 6 pin.toNat 0x72),
          (p.fmt = 7#5, x e 2 1 6 pin.toNat 0x72)] ++ pairs p.fmt 6 pin.toNat 0x72 ++ [(a.count ≠ p.rows, x e 2 3 1 ta.toNat 0x72),
          (p.count ≤ h, x e 2 3 6 pin.toNat 0x72)] ++ scaled e a.quant 1 ta.toNat 0x72 ++ scaled e p.quant 6 pin.toNat 0x72) True) ∧
      (s.core.supervisor = false → s.trapsFirst (.mopa acc ta tb z half) (read e 1 ta (mats.erase 7#5) 0x73 ++ read e 2 tb (mats.erase 7#5) 0x73 ++ pairs b.fmt 2 tb.toNat 0x73 ++
        [(b.rows ≠ a.rows, x e 2 2 2 tb.toNat 0x73), (64 < a.count, x e 2 3 1 ta.toNat 0x73), (b.count ≤ h, x e 2 3 2 tb.toNat 0x73)] ++
        scaled e a.quant 1 ta.toNat 0x73 ++ scaled e b.quant 2 tb.toNat 0x73) True) ∧
      s.trapsFirst (.mdrain td acc shape fmt quant imm rnd inf amax) [(rb % elemBytes fmt ≠ 0, x e 2 5 0 td.toNat 0x74),
        (64 < row + s.core.hRows shape, x e 2 2 0 td.toNat 0x74), (64 < col + elemCount fmt rb, x e 2 3 0 td.toNat 0x74),
        (fmt ≠ 13#5 ∧ scaleOk (s.core.qScale quant) = false, x e 5 6 0 td.toNat 0x74)] True ∧
      s.trapsFirst (.maccld acc ta imm z) (read e 1 ta [2#5, 3#5, 4#5, 5#5, 6#5, 13#5] 0x75 ++
        [(64 < row + a.rows, x e 2 2 1 ta.toNat 0x75), (64 < col + a.count, x e 2 3 1 ta.toNat 0x75)]) True)

/-- R177, R178, R182: VADD, VSUB, VMUL and VDIV compute each element exactly and round it once, or wrap integers modulo 2^w; VMIN and VMAX choose
one of the elements. An enabled exception of an element traps with its row in s.finfo, the model's reading (log entry 31). R182, R193: VFMA
rounds a·b + c once; VCLAMP is MIN(MAX(a, lo), hi) with the operations of VMIN and VMAX. Traps as above. -/
def Obligations.VectorArithmeticResults : Prop :=
  (∀ (s : State) (td ta tb : BitVec 5) (xs : BitVec 6) (form : BitVec 3) (rnd : BitVec 2) (inf : Bool), rnd.toNat ≤ 1 →
    let fmt := (s.core.tr ta).fmt
    let w := elemBits fmt
    let floats : List (BitVec 5 × FloatFmt) := [(1#5, fp64), (2#5, fp32), (3#5, fp16), (4#5, bf16)]
    let onFloats (i : Instr) (op : Val → Val → Val × FpFlags) : Prop := ∀ f, (fmt, f) ∈ floats →
      elementwise s i td ta tb xs form (fun _ => True) (rnd == 1#2) fun m n a b =>
        rounded s f rnd inf m n (op (decodeFloat f a) (decodeFloat f b))
    let onInts (i : Instr) (op : BitVec w → BitVec w → BitVec w) : Prop := fmt = 10#5 ∨ fmt = 11#5 →
      elementwise s i td ta tb xs form (fun _ => True) false fun _ _ a b => ((op (BitVec.ofNat w a) (BitVec.ofNat w b)).toNat, 0#5)
    let picks (i : Instr) (takeMin : Bool) : Prop :=
      (∀ f, (fmt, f) ∈ floats → elementwise s i td ta tb xs form (fun _ => True) false fun _ _ a b => minMaxCode f takeMin a b) ∧
      (fmt = 10#5 ∨ fmt = 11#5 → elementwise s i td ta tb xs form (fun _ => True) false fun _ _ a b =>
        (if decide ((BitVec.ofNat w a).toInt ≤ (BitVec.ofNat w b).toInt) = takeMin then a else b, 0#5))
    onFloats (.vadd td ta tb xs form rnd inf) (addVal false) ∧ onInts (.vadd td ta tb xs form 0#2 false) (· + ·) ∧
    onFloats (.vsub td ta tb xs form rnd inf) (fun a b => addVal false a b.negate) ∧ onInts (.vsub td ta tb xs form 0#2 false) (· - ·) ∧
    onFloats (.vmul td ta tb xs form rnd inf) mulVal ∧ onInts (.vmul td ta tb xs form 0#2 false) (· * ·) ∧
    onFloats (.vdiv td ta tb xs form rnd inf) divVal ∧
    picks (.vmin td ta tb xs form) true ∧ picks (.vmax td ta tb xs form) false) ∧
  (∀ (s : State) (td ta tb tc : BitVec 5) (xs : BitVec 6) (form : BitVec 3) (imm : BitVec 32) (rnd : BitVec 2) (inf : Bool), rnd.toNat ≤ 1 →
    let a := s.core.tr ta
    let c := s.core.tr tc
    let b (m n : Nat) := operandEl s form ta tb xs m n
    let w := elemBits a.fmt
    a.rows ≠ 0 → a.Shaped → operandAllowed s form ta tb →
      (∀ f, (a.fmt, f) ∈ [(1#5, fp64), (2#5, fp32), (3#5, fp16), (4#5, bf16)] → tilesAllowed s (formTiles form [td, ta, tc] tb) →
        c.rows = a.rows → c.rowbytes = a.rowbytes → c.fmt = a.fmt → c.Shaped →
        vectorWrites s (.vfma td ta tb xs form tc rnd inf) td a.rows a.rowbytes a.fmt a.quant (rnd == 1#2) fun m n =>
          rounded s f rnd inf m n (fmaVal false (decodeFloat f (a.el m n)) (decodeFloat f (b m n)) (decodeFloat f (c.el m n)))) ∧
      (a.fmt ∈ [2#5, 3#5, 4#5, 10#5] ∨ (a.fmt ∈ [1#5, 11#5] ∧ form ≠ 1#3) →
        tilesAllowed s (if form = 1#3 then [td, ta] else [td, ta, tb, tc]) → operandAllowed s form ta tc →
        vectorWrites s (.vclamp td ta tb tc xs imm form) td a.rows a.rowbytes a.fmt a.quant false fun m n =>
          let hi := if form = 1#3 then imm.toNat % 2 ^ w else operandEl s form ta tc xs m n
          let lower := minMaxElem a.fmt false (a.el m n) (b m n)
          let r := minMaxElem a.fmt true lower.1 hi
          (r.1, lower.2 ||| r.2)))

/-- R182, R183: bitwise operations on every format, shifts by the low 6 bits of the second operand's element on integers; no exception. An SQ32
result 0x80000000 becomes 0x80000001: the model's choice, log entry 28. R184, R185: VCMP writes 1 where the condition holds, else 0, under its
own record; VSEL copies the bits of a where c is not zero, else those of b, an SQ32 code 0x80000000 too (the model's choice, log entry 50). An
enabled exception of an element traps with its row in s.finfo, the model's reading (log entry 31). -/
def Obligations.VectorBitSelectionResults : Prop :=
  (∀ (s : State) (td ta tb : BitVec 5) (xs : BitVec 6) (form : BitVec 3),
    let fmt := (s.core.tr ta).fmt
    let w := elemBits fmt
    let bits (v : Nat) : Nat := if fmt = 12#5 ∧ v = 2 ^ 31 then 2 ^ 31 + 1 else v
    let computes (i : Instr) (accepts : BitVec 5 → Prop) (op : Nat → Nat → Nat) : Prop :=
      elementwise s i td ta tb xs form accepts false fun _ _ a b => (op a b, 0#5)
    let ints (f : BitVec 5) : Prop := f ∈ [8#5, 9#5, 10#5, 11#5]
    computes (.vand td ta tb xs form) (fun f => f.toNat ≤ 14) (fun a b => bits (a &&& b)) ∧
    computes (.vor td ta tb xs form) (fun f => f.toNat ≤ 14) (fun a b => bits (a ||| b)) ∧
    computes (.vxor td ta tb xs form) (fun f => f.toNat ≤ 14) (fun a b => bits (a ^^^ b)) ∧
    computes (.vshl td ta tb xs form) ints (fun a b => a * 2 ^ (b % 64) % 2 ^ w) ∧
    computes (.vshr td ta tb xs form 0#4) ints (fun a b => if w ≤ b % 64 then 0 else a / 2 ^ (b % 64)) ∧
    computes (.vshr td ta tb xs form 1#4) ints (fun a b =>
      if fmt = 9#5 then (if w ≤ b % 64 then 0 else a / 2 ^ (b % 64)) else ((BitVec.ofNat w a).sshiftRight (b % 64)).toNat)) ∧
  (∀ (s : State) (td ta tb tc fmt : BitVec 5) (xs : BitVec 6) (form shape : BitVec 3) (sel : BitVec 4),
    let a := s.core.tr ta
    let c := s.core.tr tc
    let b (m n : Nat) := operandEl s form ta tb xs m n
    let rb := s.core.hRowbytes shape
    a.rows ≠ 0 → a.Shaped → operandAllowed s form ta tb →
      (tilesAllowed s (formTiles form [td, ta] tb) → s.core.hRows shape = a.rows → elemCount fmt rb = a.count → rb % elemBytes fmt = 0 →
        fmt ∈ [8#5, 9#5, 10#5, 11#5] →
        (∀ f, (a.fmt, f) ∈ [(1#5, fp64), (2#5, fp32), (3#5, fp16), (4#5, bf16)] → sel.toNat ≤ 5 ∨ sel = 10#4 →
          vectorWrites s (.vcmp td ta tb xs form shape fmt sel) td a.rows rb fmt 0#4 false fun m n =>
            let r := fpCondHolds sel (decodeFloat f (a.el m n)) (decodeFloat f (b m n))
            (if r.1 then 1 else 0, r.2)) ∧
        (a.fmt = 10#5 ∨ a.fmt = 11#5 → sel.toNat ≤ 9 →
          vectorWrites s (.vcmp td ta tb xs form shape fmt sel) td a.rows rb fmt 0#4 false fun m n =>
            (if intCondHolds sel (BitVec.ofNat (elemBits a.fmt) (a.el m n)) (BitVec.ofNat (elemBits a.fmt) (b m n)) then 1 else 0, 0#5))) ∧
      (tilesAllowed s (formTiles form [td, ta, tc] tb) → a.fmt.toNat ≤ 14 → c.fmt ∈ [8#5, 9#5, 10#5, 11#5] → c.rows = a.rows →
        c.count = a.count → c.Shaped →
        vectorWrites s (.vsel td ta tb xs form tc) td a.rows a.rowbytes a.fmt a.quant false fun m n =>
          (if c.el m n ≠ 0 then a.el m n else b m n, 0#5)))

/-- R183, R188, R189: VABS and VNEG change the sign bit of a floating-point element, or wrap an integer; VRCP and VSQRT round once; the faithful
functions give one of the values that R188 allows: which one is free, Config.faithfulUp, and how the function is computed is the model's (log
entries 11 and 12). An enabled exception of an element traps with its row in s.finfo, the model's reading (log entry 31). R46, R47, R191, R192:
VRAND takes each element from its own draw and counts as SR-using; VIOTA counts up from xs by imm32. Traps as above. -/
def Obligations.VectorFunctionResults : Prop :=
  (∀ (s : State) (td ta : BitVec 5) (rnd : BitVec 2) (inf : Bool), rnd.toNat ≤ 1 →
    let a := s.core.tr ta
    let w := elemBits a.fmt
    let on (i : Instr) (sr : Bool) (g : Nat → Nat → Nat → Nat × FpFlags) : Prop :=
      vectorWrites s i td a.rows a.rowbytes a.fmt a.quant sr fun m n => g m n (a.el m n)
    let floats := a.fmt ∈ [1#5, 2#5, 3#5, 4#5]
    let ints := a.fmt = 10#5 ∨ a.fmt = 11#5
    tilesAllowed s [td, ta] → a.rows ≠ 0 → a.Shaped →
      (floats → on (.vabs td ta) false (fun _ _ x => (x % 2 ^ (w - 1), 0#5)) ∧ on (.vneg td ta) false (fun _ _ x => (x ^^^ 2 ^ (w - 1), 0#5))) ∧
      (ints → on (.vabs td ta) false (fun _ _ x =>
          ((if (BitVec.ofNat w x).msb then -(BitVec.ofNat w x) else BitVec.ofNat w x).toNat, 0#5)) ∧
        on (.vneg td ta) false (fun _ _ x => ((-(BitVec.ofNat w x)).toNat, 0#5))) ∧
      (∀ f, (a.fmt, f) ∈ [(1#5, fp64), (2#5, fp32), (3#5, fp16), (4#5, bf16)] →
        on (.vrcp td ta rnd inf) (rnd == 1#2) (fun m n x => rounded s f rnd inf m n (divVal (.fin false 1 1) (decodeFloat f x))) ∧
        on (.vsqrt td ta rnd inf) (rnd == 1#2) (fun m n x => rounded s f rnd inf m n (sqrtVal (decodeFloat f x)))) ∧
      (∀ f, (a.fmt, f) ∈ [(2#5, fp32), (3#5, fp16), (4#5, bf16)] →
        let fn (i : Instr) (op : BitVec 8) : Prop := on i false fun _ _ x => ((faithfulFn op f x).code, (faithfulFn op f x).flags)
        fn (.vexp2 td ta) 0x91#8 ∧ fn (.vlog2 td ta) 0x92#8 ∧ fn (.vrsq td ta) 0x94#8 ∧ fn (.vtanh td ta) 0x96#8 ∧
        fn (.vsigm td ta) 0x97#8 ∧ fn (.vgelu td ta) 0x98#8)) ∧
  (∀ (s : State) (td fmt : BitVec 5) (shape : BitVec 3) (quant : BitVec 4) (xs : BitVec 6) (imm : BitVec 32),
    let rows := s.core.hRows shape
    let rb := s.core.hRowbytes shape
    let z (m n : Nat) : Word := mix64 (s.core.seed ^^^ (s.core.serial.setWidth 64 <<< 20 + BitVec.ofNat 64 (256 * m + n)))
    let v (m n : Nat) : Int := (s.core.xr xs).toInt + ((m * elemCount fmt rb + n : Nat) : Int) * imm.toInt
    let real (f : FloatFmt) (p k : Nat) : Nat := (roundVal f .nearest false (.fin false p (2 ^ k))).code
    let gives (i : Instr) (sr : Bool) (g : Nat → Nat → Nat) : Prop := ∃ t, exec i s = .next t ∧ s.WritesT t td (tileOf rows rb fmt quant g) 0#5 sr
    tilesAllowed s [td] → rb % elemBytes fmt = 0 →
      (fmt ∈ [0#5, 9#5, 10#5, 11#5] → gives (.vrand td shape fmt quant) true fun m n => (z m n).toNat % 2 ^ elemBits fmt) ∧
      (fmt = 2#5 → gives (.vrand td shape fmt quant) true fun m n => real fp32 ((z m n).extractLsb' 8 24).toNat 24) ∧
      (fmt = 3#5 → gives (.vrand td shape fmt quant) true fun m n => real fp16 ((z m n).extractLsb' 21 11).toNat 11) ∧
      (fmt = 4#5 → gives (.vrand td shape fmt quant) true fun m n => real bf16 ((z m n).extractLsb' 24 8).toNat 8) ∧
      (fmt ∈ [10#5, 11#5] → gives (.viota td shape fmt quant xs imm) false fun m n => (BitVec.ofInt (elemBits fmt) (v m n)).toNat) ∧
      (fmt = 2#5 → gives (.viota td shape fmt quant xs imm) false fun m n => (roundVal fp32 .nearest false (ofInt (v m n))).code))

/-- R39, R48, R51, R52, R186, R187, R190: VCVT converts every value of ta, divided by the scale, and to E2M1 writes the block scales beside it;
VAMAX and .AMAX raise the amax of the quant register to the largest magnitude read. VAMAX reads a companion for an E2M1 source only. The order of
VCVT's size checks is the model's reading, log entry 28. An enabled exception of an element traps with its row in s.finfo, and a nonzero element
that an integer format rounds to 0 is an underflow: the model's readings, log entries 31 and 48. -/
def Obligations.VectorConversionResults : Prop :=
  ∀ (s : State) (td ta tb tc fmt : BitVec 5) (shape : BitVec 3) (quant : BitVec 4) (rnd : BitVec 2) (inf : Bool), rnd.toNat ≤ 1 →
    let a := s.core.tr ta
    let b := s.core.tr tb
    let rb := s.core.hRowbytes shape
    let value (m n : Nat) : Val :=
      if a.fmt = 7#5 then blockVal (((b.data.getD m []).getD (n / 32) 0#8).toNat) (a.el m n)
      else if a.fmt = 8#5 ∨ a.fmt = 9#5 then mulScale (ofInt (intOf a.fmt (a.el m n))) (s.core.qScale a.quant)
      else elemVal a.fmt (a.el m n)
    let y (m n : Nat) : Val := divScale (value m n) (s.core.qScale quant)
    let values := (List.range a.rows).flatMap fun m => (List.range a.count).map fun n => value m n
    let source : Prop := a.rows ≠ 0 ∧ a.Shaped ∧
      ((a.fmt ∈ [1#5, 2#5, 3#5, 4#5, 5#5, 6#5, 10#5, 11#5, 13#5] ∧ tb = 0#5) ∨
       (a.fmt ∈ [8#5, 9#5] ∧ tb = 0#5 ∧ scaleOk (s.core.qScale a.quant) = true) ∨
       (a.fmt = 7#5 ∧ b.Shaped ∧ b.rows = a.rows ∧ b.fmt = 14#5 ∧ b.rowbytes * 16 = a.rowbytes ∧ (a.rowbytes = 64 ∨ a.rowbytes = 128)))
    let sized : Prop := s.core.hRows shape = a.rows ∧ elemCount fmt rb = a.count ∧ rb % elemBytes fmt = 0 ∧ scaleOk (s.core.qScale quant) = true
    let converts (i : Bool → Instr) (sr : Bool) (g : Nat → Nat → Nat × FpFlags) : Prop :=
      vectorEffect s (i false) td a.rows rb fmt quant sr g id ∧ vectorEffect s (i true) td a.rows rb fmt quant sr g (raisesAmax quant values)
    (a.rows ≠ 0 → a.fmt ∈ [1#5, 2#5, 3#5, 4#5, 5#5, 6#5, 10#5, 11#5, 13#5] ∨ (a.fmt ∈ [8#5, 9#5] ∧ scaleOk (s.core.qScale a.quant) = true) →
      a.Shaped → tilesAllowed s [ta, tb] → exec (.vamax ta tb quant) s = .next (raisesAmax quant values s).retire) ∧
    (source →
      (tilesAllowed s [ta, tb] → exec (.vamax ta tb quant) s = .next (raisesAmax quant values s).retire) ∧
      (tilesAllowed s [td, ta, tb] → sized →
        (∀ f, (fmt, f) ∈ [(1#5, fp64), (2#5, fp32), (3#5, fp16), (4#5, bf16), (5#5, e4m3), (6#5, e5m2), (13#5, fa48)] →
          converts (.vcvt td ta tb 0#5 shape fmt quant rnd inf) (rnd == 1#2) fun m n => rounded s f rnd inf m n (y m n, 0#5)) ∧
        (fmt ∈ [8#5, 9#5, 10#5, 11#5] →
          converts (.vcvt td ta tb 0#5 shape fmt quant 0#2 false) false fun m n =>
            let r := toIntRange .nearest (intBounds fmt).1 (intBounds fmt).2 (y m n)
            ((BitVec.ofInt (elemBits fmt) r.1).toNat, r.2)) ∧
        (fmt = 7#5 → rb = 64 ∨ rb = 128 → td ≠ tc → tilesAllowed s [td, ta, tb, tc] →
          let block (m k : Nat) := convertBlock (fun e => elementMode s rnd 0 e) (256 * m + 32 * k) ((List.range 32).map fun n => y m (32 * k + n))
          let g (m n : Nat) : Nat × FpFlags := (block m (n / 32)).2.getD (n % 32) (0, 0#5)
          let scales (t : State) : State := { t with core := t.core.setT tc (tileOf a.rows (rb / 16) 14#5 quant fun m k => (block m k).1) }
          vectorEffect s (.vcvt td ta tb tc shape fmt quant rnd inf false) td a.rows rb fmt quant (rnd == 1#2) g scales ∧
          vectorEffect s (.vcvt td ta tb tc shape fmt quant rnd inf true) td a.rows rb fmt quant (rnd == 1#2) g
            fun t => raisesAmax quant values (scales t))))

/-- R194, R195, R200: a row reduction writes element 0 of its row and 0 after it, a column reduction row 0: sums of floating-point elements
through the 48-bit tree, integer sums saturated, the extreme element, the tree of products. Which invalid exceptions a tree raises is the model's
reading, log entry 28. An enabled exception of an element traps with its row in s.finfo, the model's reading (log entry 31). -/
def Obligations.VectorReductionResults : Prop :=
  ∀ (s : State) (td ta tb fmt : BitVec 5) (shape form : BitVec 3) (rnd : BitVec 2) (inf : Bool), rnd.toNat ≤ 1 →
    let a := s.core.tr ta
    let rb := s.core.hRowbytes shape
    let row (m : Nat) : List Nat := (List.range a.count).map fun n => a.el m n
    let col (n : Nat) : List Nat := (List.range a.rows).map fun m => a.el m n
    let first (g : Nat → Nat × FpFlags) (m n : Nat) : Nat × FpFlags := if n = 0 then g m else (0, 0#5)
    let total (xs : List Nat) : Nat :=
      (BitVec.ofInt (elemBits fmt) (sat ((xs.map fun x => (BitVec.ofNat (elemBits a.fmt) x).toInt).sum) (intBounds fmt).1 (intBounds fmt).2)).toNat
    let tree (f g : FloatFmt) (k m n : Nat) (xs : List Nat) : Nat × FpFlags := rounded s g rnd inf m n (treeSum k (xs.map (decodeFloat f)))
    let small : List (BitVec 5 × FloatFmt) := [(2#5, fp32), (3#5, fp16), (4#5, bf16)]
    let toRows : Prop := s.core.hRows shape = a.rows
    let toRow : Prop := s.core.hRows shape = 1 ∧ elemCount fmt rb = a.count
    tilesAllowed s [td, ta] → a.rows ≠ 0 → a.Shaped → 4 ≤ rb → a.rowbytes ≤ 128 → a.rows ≤ 64 → rb % elemBytes fmt = 0 →
      (∀ f g, (a.fmt, f) ∈ small → (fmt, g) ∈ small →
        (toRows → vectorWrites s (.vrsum td ta shape fmt rnd inf) td a.rows rb fmt 0#4 (rnd == 1#2)
          (first fun m => tree f g (if a.fmt = 2#5 then 5 else 6) m 0 (row m))) ∧
        (toRow → vectorWrites s (.vcsum td ta shape fmt rnd inf) td 1 rb fmt 0#4 (rnd == 1#2) fun _ n => tree f g 6 0 n (col n)) ∧
        (let b := s.core.tr tb
         toRows → tilesAllowed s [tb] → form = 0#3 ∨ form = 2#3 → operandAllowed s form ta tb →
          vectorWrites s (.vrdot td ta tb shape fmt rnd inf form) td a.rows rb fmt 0#4 (rnd == 1#2) (first fun m =>
            let ps := (List.range a.count).map fun n =>
              mulVal (decodeFloat f (a.el m n)) (decodeFloat f (b.el (if form = 2#3 then 0 else m) n))
            let t := treeSum (if a.fmt = 2#5 then 5 else 6) (ps.map Prod.fst)
            rounded s g rnd inf m 0 (t.1, ps.foldl (fun fl p => fl ||| p.2) t.2)))) ∧
      (a.fmt ∈ [10#5, 11#5] → fmt ∈ [10#5, 11#5] →
        (toRows → vectorWrites s (.vrsum td ta shape fmt 0#2 false) td a.rows rb fmt 0#4 false (first fun m => (total (row m), 0#5))) ∧
        (toRow → vectorWrites s (.vcsum td ta shape fmt 0#2 false) td 1 rb fmt 0#4 false fun _ n => (total (col n), 0#5))) ∧
      (a.fmt ∈ [1#5, 2#5, 3#5, 4#5, 10#5, 11#5] → fmt = a.fmt →
        (toRows → vectorWrites s (.vrmax td ta shape fmt) td a.rows rb fmt 0#4 false (first fun m => extremeElem fmt false (row m)) ∧
          vectorWrites s (.vrmin td ta shape fmt) td a.rows rb fmt 0#4 false (first fun m => extremeElem fmt true (row m))) ∧
        (toRow → vectorWrites s (.vcmax td ta shape fmt) td 1 rb fmt 0#4 false (fun _ n => extremeElem fmt false (col n)) ∧
          vectorWrites s (.vcmin td ta shape fmt) td 1 rb fmt 0#4 false (fun _ n => extremeElem fmt true (col n))))

/-- R139, R196-R199: VTRANS transposes, VBCAST spreads an element or a row, VSHUF picks by index within a row, VSCAN gives the inclusive prefixes
of each row; which invalid exceptions a scan raises is the model's reading, log entry 28, and that the SQ32 code 0x80000000 is copied too its
choice, log entry 50. An enabled exception of an element traps with its row in s.finfo, the model's reading (log entry 31). -/
def Obligations.VectorRearrangementResults : Prop :=
  ∀ (s : State) (td ta tb : BitVec 5) (shape form : BitVec 3) (imm : BitVec 32) (rnd : BitVec 2) (inf : Bool), rnd.toNat ≤ 1 →
    let a := s.core.tr ta
    let b := s.core.tr tb
    let rb := s.core.hRowbytes shape
    let rows := s.core.hRows shape
    let gives (i : Instr) (v : Tile) : Prop := ∃ t, exec i s = .next t ∧ s.WritesT t td v 0#5 false
    let index (m n : Nat) : Int := intOf b.fmt (operandEl s form ta tb 0#6 m n)
    let running (g : Nat → Nat → Nat × FpFlags) (m : Nat) : Nat → Nat × FpFlags
      | 0 => g (a.el m 0) (a.el m 0)
      | n + 1 => g ((List.range (n + 1)).foldl (fun acc k => if k = 0 then (g (a.el m 0) (a.el m 0)).1 else (g acc (a.el m k)).1) 0) (a.el m (n + 1))
    let sum48 (f : FloatFmt) (m n : Nat) : Nat :=
      (List.range n).foldl (fun acc k => (roundVal fa48 .nearest false (addVal false (decodeFloat fa48 acc) (decodeFloat f (a.el m k))).1).code) 0
    tilesAllowed s [td, ta] → a.rows ≠ 0 → a.Shaped →
      (a.fmt.toNat ≤ 14 → a.fmt ≠ 7#5 → a.count ≤ 64 → 4 ≤ a.rows * elemBytes a.fmt → a.rows * elemBytes a.fmt ≤ 128 →
        a.rows * elemBytes a.fmt % 4 = 0 →
        gives (.vtrans td ta) (tileOf a.count (a.rows * elemBytes a.fmt) a.fmt a.quant fun m n => a.el n m)) ∧
      (a.fmt.toNat ≤ 14 → rb % elemBytes a.fmt = 0 → imm.toNat / 256 < a.rows → imm.toNat % 256 < a.count →
        gives (.vbcast td ta shape imm 0#4) (tileOf rows rb a.fmt a.quant fun _ _ => a.el (imm.toNat / 256) (imm.toNat % 256))) ∧
      (a.fmt.toNat ≤ 14 → rb = a.rowbytes → imm.toNat < a.rows →
        gives (.vbcast td ta shape imm 1#4) ⟨rows, rb, a.fmt, a.quant, List.replicate rows (a.data.getD imm.toNat [])⟩) ∧
      (a.fmt.toNat ≤ 14 → tilesAllowed s [tb] → b.rows ≠ 0 → b.Shaped → b.fmt ∈ [8#5, 9#5, 10#5, 11#5] → b.count = a.count →
        (form = 0#3 ∧ b.rows = a.rows) ∨ form = 2#3 →
        (∀ m < a.rows, ∀ n < a.count, 0 ≤ index m n ∧ index m n < a.count) →
        gives (.vshuf td ta tb form) (tileOf a.rows a.rowbytes a.fmt a.quant fun m n => a.el m (index m n).toNat)) ∧
      (∀ f, (a.fmt, f) ∈ [(2#5, fp32), (3#5, fp16), (4#5, bf16)] →
        vectorWrites s (.vscan td ta 0#4 rnd inf) td a.rows a.rowbytes a.fmt a.quant (rnd == 1#2) fun m n =>
          rounded s f rnd inf m n (decodeFloat fa48 (sum48 f m (n + 1)),
            (addVal false (decodeFloat fa48 (sum48 f m n)) (decodeFloat f (a.el m n))).2)) ∧
      (a.fmt ∈ [10#5, 11#5] →
        vectorWrites s (.vscan td ta 0#4 0#2 false) td a.rows a.rowbytes a.fmt a.quant false fun m n =>
          (((List.range (n + 1)).map fun k => a.el m k).sum % 2 ^ elemBits a.fmt, 0#5)) ∧
      (a.fmt ∈ [2#5, 3#5, 4#5, 10#5, 11#5] →
        vectorWrites s (.vscan td ta 1#4 0#2 false) td a.rows a.rowbytes a.fmt a.quant false (running (minMaxElem a.fmt false)) ∧
        vectorWrites s (.vscan td ta 2#4 0#2 false) td a.rows a.rowbytes a.fmt a.quant false (running (minMaxElem a.fmt true)))

/-- R46, R54, R130, R179: an enabled exception of some element is the class-5 exception of the highest enabled one, with the lowest element index
that raised it in s.faddr; no tile, flag or SR count changes. Here for elementwise forms under every rounding; the other forms' traps stand
beside their results. The row in s.finfo is the model's reading, log entry 31, and the faithful functions' values are log entry 11's. R129, R51,
R177, R178, R180: the faults of the vector instructions before they compute, in their order: a source that is empty (class 2 detail 0x00) or of
another format (0x01), the pair of formats (0x04), rows (0x02), bytes of a row (0x03), the produced record (0x05), a bad scale (class 5 detail
0x06), an index out of range (class 4 detail 0x05), and the class-1 faults that depend on ta's format; role and tile as R130 names them. Where
R180 gives a check no place, its place is the model's choice (log entries 64 and 28); the row of an index fault is its reading, log entry 31; the
elements of a row whose bytes are no multiple of their size, its choice, log entry 75. -/
def Obligations.VectorTraps : Prop :=
  (∀ (s : State) (td ta tb tc : BitVec 5) (xs : BitVec 6) (form : BitVec 3) (rnd : BitVec 2) (inf : Bool) (d m n : Nat) (f : FloatFmt),
    rnd.toNat ≤ 1 → 1 ≤ d → d ≤ 5 →
    let a := s.core.tr ta
    let c := s.core.tr tc
    tilesAllowed s (formTiles form [td, ta] tb) → a.rows ≠ 0 → a.Shaped → a.rowbytes ≤ 128 → a.rows ≤ 64 →
    (a.fmt, f) ∈ [(1#5, fp64), (2#5, fp32), (3#5, fp16), (4#5, bf16)] → operandAllowed s form ta tb → m < a.rows → n < a.count →
    let x (m n : Nat) : Val := decodeFloat f (a.el m n)
    let y (m n : Nat) : Val := decodeFloat f (operandEl s form ta tb xs m n)
    let traps (i : Instr) (op : Nat) (flags : Nat → Nat → FpFlags) : Prop :=
      let fl (m n : Nat) : FpFlags := flags m n &&& s.core.fptrap
      (fl m n).getLsbD (5 - d) = true →
      (∀ m' < a.rows, ∀ n' < a.count, (fl m' n').getLsbD (5 - d) = true → 256 * m + n ≤ 256 * m' + n') →
      (∀ m' < a.rows, ∀ n' < a.count, ∀ k < d, 1 ≤ k → (fl m' n').getLsbD (5 - k) = false) →
        exec i s = .next (s.enter ⟨5, d, BitVec.ofNat 64 (256 * m + n),
          BitVec.ofNat 64 (m * 2 ^ 20 + 4 * 2 ^ 16 + 0 * 2 ^ 13 + td.toNat * 2 ^ 8 + op)⟩)
    let rounding (i : Instr) (op : Nat) (r : Nat → Nat → Val × FpFlags) : Prop := traps i op fun m n => (rounded s f rnd inf m n (r m n)).2
    rounding (.vadd td ta tb xs form rnd inf) 0x80 (fun m n => addVal false (x m n) (y m n)) ∧
    rounding (.vsub td ta tb xs form rnd inf) 0x81 (fun m n => addVal false (x m n) (y m n).negate) ∧
    rounding (.vmul td ta tb xs form rnd inf) 0x82 (fun m n => mulVal (x m n) (y m n)) ∧
    rounding (.vdiv td ta tb xs form rnd inf) 0x8F (fun m n => divVal (x m n) (y m n)) ∧
    (tilesAllowed s [tc] → c.rows = a.rows → c.rowbytes = a.rowbytes → c.fmt = a.fmt → c.Shaped →
      rounding (.vfma td ta tb xs form tc rnd inf) 0x83 (fun m n => fmaVal false (x m n) (y m n) (decodeFloat f (c.el m n)))) ∧
    traps (.vmin td ta tb xs form) 0x84 (fun m n => (minMaxCode f true (a.el m n) (operandEl s form ta tb xs m n)).2) ∧
    traps (.vmax td ta tb xs form) 0x85 (fun m n => (minMaxCode f false (a.el m n) (operandEl s form ta tb xs m n)).2) ∧
    rounding (.vrcp td ta rnd inf) 0x93 (fun m n => divVal (.fin false 1 1) (x m n)) ∧
    rounding (.vsqrt td ta rnd inf) 0x95 (fun m n => sqrtVal (x m n)) ∧
    (a.fmt ≠ 1#5 →
      let fn (i : Instr) (op : BitVec 8) : Prop := traps i op.toNat fun m n => (faithfulFn op f (a.el m n)).flags
      fn (.vexp2 td ta) 0x91#8 ∧ fn (.vlog2 td ta) 0x92#8 ∧ fn (.vrsq td ta) 0x94#8 ∧ fn (.vtanh td ta) 0x96#8 ∧
      fn (.vsigm td ta) 0x97#8 ∧ fn (.vgelu td ta) 0x98#8)) ∧
  (∀ (s : State) (td ta tb tc fmt : BitVec 5) (xs : BitVec 6) (shape form : BitVec 3) (quant sel : BitVec 4) (imm : BitVec 32) (rnd : BitVec 2)
    (inf amax : Bool), form.toNat ≤ 3 → tilesAllowed s [td, ta, tb, tc] →
    let a := s.core.tr ta
    let b := s.core.tr tb
    let c := s.core.tr tc
    let rows := s.core.hRows shape
    let rb := s.core.hRowbytes shape
    let column := a.rows * elemBytes a.fmt
    let x (cls d role : Nat) (reg : BitVec 5) (op : Nat) : Exc := ⟨cls, d, 0#64, faultInfo 0 4 role reg.toNat op⟩
    let class1 (d op : Nat) : Exc := ⟨1, d, s.core.pc, BitVec.ofNat 64 op⟩
    let floats : List (BitVec 5) := [1#5, 2#5, 3#5, 4#5]
    let numbers := floats ++ [10#5, 11#5]
    let sums : List (BitVec 5) := [2#5, 3#5, 4#5, 10#5, 11#5]
    let ints : List (BitVec 5) := [8#5, 9#5, 10#5, 11#5]
    let tags : List (BitVec 5) := (List.range 15).map (BitVec.ofNat 5)
    let real (f : BitVec 5) : Prop := f ∈ [1#5, 2#5, 3#5, 4#5, 5#5, 6#5, 7#5, 13#5]
    let read (role : Nat) (reg : BitVec 5) (fs : List (BitVec 5)) (op : Nat) : List (Prop × Exc) :=
      [((s.core.tr reg).rows = 0, x 2 0 role reg op), ((s.core.tr reg).fmt ∉ fs, x 2 1 role reg op)]
    let only (g : Prop) (l : List (Prop × Exc)) : List (Prop × Exc) := l.map fun p => (g ∧ p.1, p.2)
    let random (role : Nat) (reg f : BitVec 5) (op : Nat) : List (Prop × Exc) := [(¬real f ∧ (rnd ≠ 0#2 ∨ inf = true), x 2 1 role reg op)]
    let pair (role : Nat) (reg : BitVec 5) (op : Nat) : List (Prop × Exc) := [((s.core.tr reg).fmt ≠ a.fmt, x 2 4 role reg op)]
    let sized (role : Nat) (reg : BitVec 5) (f : BitVec 3) (op : Nat) : List (Prop × Exc) :=
      [((f = 0#3 ∨ f = 3#3) ∧ (s.core.tr reg).rows ≠ a.rows, x 2 2 role reg op),
       ((f = 0#3 ∨ f = 2#3) ∧ (s.core.tr reg).rowbytes ≠ a.rowbytes, x 2 3 role reg op)]
    let tall (n op : Nat) : List (Prop × Exc) := [(rows ≠ n, x 2 2 0 td op)]
    let wide (op : Nat) : List (Prop × Exc) := [(elemCount fmt rb ≠ a.count, x 2 3 0 td op)]
    let made (f : BitVec 5) (op : Nat) : List (Prop × Exc) := [(rb % elemBytes f ≠ 0, x 2 5 0 td op)]
    let companion (op : Nat) : List (Prop × Exc) := only (a.fmt = 7#5)
      [(b.rows ≠ a.rows, x 2 2 2 tb op), (a.rowbytes ≠ 64 ∧ a.rowbytes ≠ 128, x 2 3 1 ta op), (b.rowbytes * 16 ≠ a.rowbytes, x 2 3 2 tb op)]
    let scaled (op : Nat) : List (Prop × Exc) := [((a.fmt = 8#5 ∨ a.fmt = 9#5) ∧ scaleOk (s.core.qScale a.quant) = false, x 5 6 1 ta op)]
    let index (e : Nat) (op : Nat) : Exc := ⟨4, 5, BitVec.ofNat 64 e, faultInfo (e / 256 % 64) 4 1 ta.toNat op⟩
    let pick (m n : Nat) : Int := intOf b.fmt (operandEl s form ta tb 0#6 m n)
    let far (m n : Nat) : Prop := pick m n < 0 ∨ (a.count : Int) ≤ pick m n
    let two (i : Instr) (op : Nat) (fs : List (BitVec 5)) (sr : Prop) : Prop :=
      s.trapsFirst i (read 1 ta fs op ++ only sr (random 1 ta a.fmt op) ++
        only (form ≠ 1#3) (read 2 tb fs op ++ pair 2 tb op ++ sized 2 tb form op)) True
    let one (i : Instr) (op : Nat) (fs : List (BitVec 5)) : Prop := s.trapsFirst i (read 1 ta fs op) True
    let reduces (i : Instr) (op : Nat) (l : List (Prop × Exc)) : Prop := s.trapsFirst i (read 1 ta numbers op ++ [(fmt ≠ a.fmt, x 2 4 0 td op)] ++ l) True
    let sum (op : Nat) : List (Prop × Exc) := read 1 ta sums op ++ random 0 td fmt op ++ [(¬(real a.fmt ↔ real fmt), x 2 4 0 td op)]
    two (.vadd td ta tb xs form rnd inf) 0x80 numbers True ∧ two (.vsub td ta tb xs form rnd inf) 0x81 numbers True ∧
    two (.vmul td ta tb xs form rnd inf) 0x82 numbers True ∧ two (.vdiv td ta tb xs form rnd inf) 0x8F floats True ∧
    two (.vmin td ta tb xs form) 0x84 numbers False ∧ two (.vmax td ta tb xs form) 0x85 numbers False ∧
    two (.vand td ta tb xs form) 0x86 tags False ∧ two (.vor td ta tb xs form) 0x87 tags False ∧ two (.vxor td ta tb xs form) 0x88 tags False ∧
    two (.vshl td ta tb xs form) 0x89 ints False ∧ two (.vshr td ta tb xs form sel) 0x8A ints False ∧
    s.trapsFirst (.vfma td ta tb xs form tc rnd inf) (read 1 ta floats 0x83 ++ only (form ≠ 1#3) (read 2 tb floats 0x83) ++ read 3 tc floats 0x83 ++
      only (form ≠ 1#3) (pair 2 tb 0x83) ++ pair 3 tc 0x83 ++ only (form ≠ 1#3) (sized 2 tb form 0x83) ++ sized 3 tc 0#3 0x83) True ∧
    s.trapsFirst (.vcmp td ta tb xs form shape fmt sel) (read 1 ta numbers 0x8B ++ only (form ≠ 1#3) (read 2 tb numbers 0x8B) ++
      [(if a.fmt ∈ floats then ¬(sel.toNat ≤ 5 ∨ sel = 10#4) else 9 < sel.toNat, class1 3 0x8B)] ++
      only (form ≠ 1#3) (pair 2 tb 0x8B ++ sized 2 tb form 0x8B) ++ tall a.rows 0x8B ++ wide 0x8B ++ made fmt 0x8B) True ∧
    s.trapsFirst (.vsel td ta tb xs form tc) (read 1 ta tags 0x8C ++ only (form ≠ 1#3) (read 2 tb tags 0x8C) ++ read 3 tc ints 0x8C ++
      only (form ≠ 1#3) (pair 2 tb 0x8C ++ sized 2 tb form 0x8C) ++
      [(c.rows ≠ a.rows, x 2 2 3 tc 0x8C), (c.count ≠ a.count, x 2 3 3 tc 0x8C)]) True ∧
    s.trapsFirst (.vclamp td ta tb tc xs imm form) (read 1 ta numbers 0x9C ++ only (form ≠ 1#3) (read 2 tb numbers 0x9C ++ read 3 tc numbers 0x9C) ++
      [(form = 1#3 ∧ (a.fmt = 1#5 ∨ a.fmt = 11#5), class1 3 0x9C)] ++
      only (form ≠ 1#3) (pair 2 tb 0x9C ++ pair 3 tc 0x9C ++ sized 2 tb form 0x9C ++ sized 3 tc form 0x9C)) True ∧
    one (.vabs td ta) 0x8D numbers ∧ one (.vneg td ta) 0x8E numbers ∧
    one (.vexp2 td ta) 0x91 floats.tail ∧ one (.vlog2 td ta) 0x92 floats.tail ∧ one (.vrsq td ta) 0x94 floats.tail ∧
    one (.vtanh td ta) 0x96 floats.tail ∧ one (.vsigm td ta) 0x97 floats.tail ∧ one (.vgelu td ta) 0x98 floats.tail ∧
    one (.vrcp td ta rnd inf) 0x93 floats ∧ one (.vsqrt td ta rnd inf) 0x95 floats ∧
    s.trapsFirst (.vcvt td ta tb tc shape fmt quant rnd inf amax) (read 1 ta (tags.tail.take 11 ++ [13#5]) 0x90 ++
      only (a.fmt = 7#5) (read 2 tb [14#5] 0x90) ++ [(a.fmt ≠ 7#5 ∧ tb ≠ 0#5, class1 1 0x90)] ++ random 0 td fmt 0x90 ++ tall a.rows 0x90 ++
      wide 0x90 ++ companion 0x90 ++ [(fmt = 7#5 ∧ rb ≠ 64 ∧ rb ≠ 128, x 2 3 0 td 0x90)] ++ made fmt 0x90 ++ scaled 0x90 ++
      [(scaleOk (s.core.qScale quant) = false, x 5 6 0 td 0x90)]) True ∧
    s.trapsFirst (.vamax ta tb quant) (read 1 ta (tags.tail.take 11 ++ [13#5]) 0x99 ++ only (a.fmt = 7#5) (read 2 tb [14#5] 0x99) ++
      companion 0x99 ++ scaled 0x99) True ∧
    s.trapsFirst (.vrand td shape fmt quant) (made fmt 0x9A) True ∧ s.trapsFirst (.viota td shape fmt quant xs imm) (made fmt 0x9B) True ∧
    s.trapsFirst (.vrsum td ta shape fmt rnd inf) (sum 0xA0 ++ tall a.rows 0xA0 ++ made fmt 0xA0) True ∧
    s.trapsFirst (.vcsum td ta shape fmt rnd inf) (sum 0xA3 ++ tall 1 0xA3 ++ wide 0xA3 ++ made fmt 0xA3) True ∧
    reduces (.vrmax td ta shape fmt) 0xA1 (tall a.rows 0xA1 ++ made fmt 0xA1) ∧ reduces (.vrmin td ta shape fmt) 0xA2 (tall a.rows 0xA2 ++ made fmt 0xA2) ∧
    reduces (.vcmax td ta shape fmt) 0xA4 (tall 1 0xA4 ++ wide 0xA4 ++ made fmt 0xA4) ∧
    reduces (.vcmin td ta shape fmt) 0xA5 (tall 1 0xA5 ++ wide 0xA5 ++ made fmt 0xA5) ∧
    s.trapsFirst (.vtrans td ta) (read 1 ta (tags.erase 7#5) 0xA6 ++ [(64 < a.count, x 2 3 1 ta 0xA6),
      (column < 4 ∨ 128 < column ∨ column % 4 ≠ 0, x 2 2 1 ta 0xA6)]) True ∧
    s.trapsFirst (.vbcast td ta shape imm 0#4) (read 1 ta tags 0xA7 ++ made a.fmt 0xA7 ++
      [(a.rows ≤ imm.toNat / 256 ∨ a.count ≤ imm.toNat % 256, index imm.toNat 0xA7)]) True ∧
    s.trapsFirst (.vbcast td ta shape imm 1#4) (read 1 ta tags 0xA7 ++ [(rb ≠ a.rowbytes, x 2 3 0 td 0xA7),
      (a.rows ≤ imm.toNat, index (256 * imm.toNat) 0xA7)]) True ∧
    (form = 0#3 ∨ form = 2#3 → s.trapsFirst (.vshuf td ta tb form) (read 1 ta tags 0xA8 ++ read 2 tb ints 0xA8 ++
      [(form = 0#3 ∧ b.rows ≠ a.rows, x 2 2 2 tb 0xA8), (b.count ≠ a.count, x 2 3 2 tb 0xA8)])
      (b.Shaped → b.rowbytes ≤ 128 → ∀ m < a.rows, ∀ n < a.count, far m n →
          (∀ k < a.rows, ∀ l < a.count, far k l → 256 * m + n ≤ 256 * k + l) →
          exec (.vshuf td ta tb form) s = .next (s.enter ⟨4, 5, BitVec.ofNat 64 (256 * m + n), faultInfo (m % 64) 4 2 tb.toNat 0xA8⟩))) ∧
    s.trapsFirst (.vscan td ta sel rnd inf) (read 1 ta sums 0xA9 ++ random 1 ta a.fmt 0xA9) True ∧
    s.trapsFirst (.vrdot td ta tb shape fmt rnd inf form) (read 1 ta floats.tail 0xAA ++ read 2 tb floats.tail 0xAA ++ pair 2 tb 0xAA ++
      sized 2 tb form 0xAA ++ tall a.rows 0xAA ++ made fmt 0xAA) True)

/-- R29, R149, R310, R313-R315: taking an exception empties the store drain, saves the PC, the cause, s.faddr and s.finfo, moves mode to pmode,
sets mode, and goes to s.tvec + 64·class; no other register changes. The memory is that after the drain's writes in their order, with the
rendezvous updates that are due before each (R116). That the entry of a turn waits for lines that the host may hold, and the drain's place in it,
are the model's choices (log entry 35). -/
def Obligations.ExceptionEntry : Prop :=
  ∀ (s : State) (x : Exc), x.cls < 16 → x.detail < 64 →
    let t := s.enter x
    t.core.epc = s.core.pc ∧
    t.core.cause = BitVec.ofNat 64 x.cls <<< 6 ||| BitVec.ofNat 64 x.detail ∧
    t.core.faddr = x.faddr ∧
    t.core.finfo = x.finfo ∧
    t.core.pc = s.core.tvec + 64#64 * BitVec.ofNat 64 x.cls ∧
    (∀ i < 64, t.core.ps.getLsbD i = if i = 15 then true else if i = 16 then s.core.ps.getLsbD 15 else s.core.ps.getLsbD i) ∧
    t.core.drain = [] ∧
    t.core.x = s.core.x ∧ t.core.t = s.core.t ∧ t.core.a = s.core.a ∧ t.core.w = s.core.w ∧ t.core.h = s.core.h ∧ t.core.q = s.core.q ∧
    t.core.tvec = s.core.tvec ∧ t.core.seed = s.core.seed ∧ t.core.serial = s.core.serial ∧ t.core.sytmo = s.core.sytmo ∧
    t.core.asid = s.core.asid ∧ t.core.colour = s.core.colour ∧ t.core.dirtyT = s.core.dirtyT ∧ t.core.dirtyA = s.core.dirtyA ∧
    t.core.dirtyW = s.core.dirtyW ∧ t.core.scr = s.core.scr ∧ t.core.strand = s.core.strand ∧ t.core.cycle = s.core.cycle ∧
    t.core.lvl = s.core.lvl ∧ t.core.copies = s.core.copies ∧ t.core.limits = s.core.limits ∧ t.core.num = s.core.num ∧
    t.core.kind = s.core.kind ∧ t.core.run = s.core.run ∧ t.core.windowCounts = s.core.windowCounts ∧ t.core.inbox = s.core.inbox ∧
    t.core.held = s.core.held ∧ t.core.posts = s.core.posts ∧
    let c := s.countWalk x
    let writes := s.core.drain.flatMap fun e => e.writes.map fun w => (e.scope, w)
    let u := writes.foldl State.drainNext { c with core := { c.core with drain := [], sent := false } }
    let v := writes.foldl (fun v p => v.performWrite p.1 p.2) { c with core := { c.core with drain := [], sent := false } }
    t.card = u.card ∧ t.peer = u.peer ∧ t.host = u.host ∧ t.core.stash = u.core.stash ∧
    (s.card.rendezvous = [] → t.card = v.card ∧ t.peer = v.peer ∧ t.host = v.host ∧ t.core.stash = v.core.stash) ∧
    (s.core.drain = [] → t.card = c.card ∧ t.peer = c.peer ∧ t.host = s.host ∧ t.core.stash = s.core.stash) ∧
    c.card = { s.card with malformed := c.card.malformed } ∧ c.peer = { s.peer with malformed := c.peer.malformed }

/-- R311, R313, R318: TRAP and SYSCALL retire and enter with class 14, details 0x00 and 0x01: s.epc the next PC, s.faddr the immediate, s.finfo
the instruction's own PC. R316, R319, R328: ERET restores mode from pmode, clears pmode and goes to s.epc; a return to user mode ends the parking
of a resumed strand; a cause held until then is taken there before anything else; a target that is no valid PC is class 1 detail 0x04. The end of
parking, the PC of held contributions and the note of the default handler's record are the model's choices (log entries 35, 23 and 14). -/
def Obligations.TrapReturnResults : Prop :=
  (∀ (s : State) (imm : Word),
    let enters (i : Instr) (detail : Nat) : Prop :=
      ∃ t, exec i s = .next t ∧ t = s.retire.enter ⟨14, detail, imm, s.core.pc⟩ ∧ t.core.epc = nextPc s.core.pc ∧ t.core.faddr = imm ∧
        t.core.finfo = s.core.pc ∧ t.core.cause = BitVec.ofNat 64 (14 * 64 + detail) ∧ t.core.pc = s.core.tvec + 896#64 ∧
        t.core.supervisor = true ∧ t.core.pmode = s.core.supervisor ∧ t.core.x = s.core.x
    enters (.trap imm) 0 ∧ enters (.syscall imm) 1) ∧
  (∀ (s : State), s.core.supervisor = true →
    let user := !s.core.pmode
    let c := { s.core with
      pc := s.core.epc, waitFrom := none, waiting := none,
      ps := if user then s.core.ps &&& ~~~0x18000#64 else (s.core.ps &&& ~~~0x10000#64) ||| 0x8000#64,
      fw := if user then [] else s.core.fw.tail,
      parked := if user && s.core.parked == .resuming then .free else s.core.parked,
      held := if user && s.core.parked == .resuming then s.core.held.map fun h => { h with pc := some (h.pc.getD s.core.epc) } else s.core.held }
    (validPc s.core.epc = true → s.core.pmode = true ∨ (s.core.machineChecks = [] ∧ s.core.preempt = none ∧ s.core.reports = []) →
      exec .eret s = .next { s with core := c }) ∧
    (∀ x rest, validPc s.core.epc = true → s.core.pmode = false → s.core.machineChecks = x :: rest → x.cls = 15 →
      exec .eret s = .next (({ s with core := { c with machineChecks := rest } } : State).enter x)) ∧
    (∀ x, validPc s.core.epc = true → s.core.pmode = false → s.core.machineChecks = [] → s.core.preempt = some x → x.cls = 13 →
      exec .eret s = .next (({ s with core := { c with preempt := none } } : State).enter x)) ∧
    (∀ x rest, validPc s.core.epc = true → s.core.pmode = false → s.core.machineChecks = [] → s.core.preempt = none →
      s.core.reports = x :: rest → x.cls = 12 → exec .eret s = .next (({ s with core := { c with reports := rest } } : State).enter x)) ∧
    (validPc s.core.epc = false → exec .eret s = .next (s.enter ⟨1, 4, s.core.epc, 0x04#64⟩)))

/-- R23, R90, R322: MFS writes xd with the register that its number names; a number that names none is class 1 detail 0x05, a copy channel beyond
the declared ones detail 0x03, and s.dirty.a or s.dirty.w of a core without matrix engines class 6 detail 0x00 in either mode. R21, R24, R46,
R310, R323, R471: what MTS writes: each register takes the value in its width, s.ps field by field, s.seed restarts the serial, a shape register
keeps bits [14:0] of a legal shape, s.tvec and s.asid take a legal value, and nothing else changes. A number that names none or a read-only
register is class 1 detail 0x05, an illegal value class 4 detail 0x02 with a free s.faddr (log entry 21). -/
def Obligations.SpecialRegisterResults : Prop :=
  (∀ (s : State) (xd : BitVec 6) (n : Nat) (v : Word), n < 4096 →
    (s.core.kind = .compute ∨ (n ≠ 0x023 ∧ n ≠ 0x024) → (∀ k < 8, 0x200 + 16 * k ≤ n → n ≤ 0x208 + 16 * k → channelAllowed s k) → (n, v) ∈ specialRegisters s →
      ∃ t, exec (.mfs xd (BitVec.ofNat 12 n)) s = .next t ∧ s.WritesX t xd v 0#5) ∧
    ((∀ p ∈ specialRegisters s, p.1 ≠ n) →
      exec (.mfs xd (BitVec.ofNat 12 n)) s = .next (s.enter ⟨1, 5, s.core.pc, 0x05#64⟩)) ∧
    (s.core.kind ≠ .compute → n = 0x023 ∨ n = 0x024 → exec (.mfs xd (BitVec.ofNat 12 n)) s = .next (s.enter ⟨6, 0, 0#64, 0x05#64⟩)) ∧
    ∀ k < 8, ¬channelAllowed s k → 0x200 + 16 * k ≤ n → n ≤ 0x208 + 16 * k →
      exec (.mfs xd (BitVec.ofNat 12 n)) s = .next (s.enter ⟨1, 3, s.core.pc, 0x05#64⟩)) ∧
  (∀ (s : State) (xa : BitVec 6) (h : BitVec 3),
    let v := s.core.xr xa
    let sup := s.core.supervisor
    let becomes (i : Instr) (c : Core) : Prop := exec i s = .next (s.onward c)
    becomes (.mtsSeed xa) { s.core with seed := v, serial := 0#44 } ∧
    becomes (.mts xa 0x017#12) { s.core with sytmo := v } ∧
    (∀ i : Fin 16, becomes (.mts xa (BitVec.ofNat 12 (0x110 + i))) { s.core with q := s.core.q.set i v }) ∧
    (sup = true →
      becomes (.mts xa 0x013#12) { s.core with epc := v } ∧
      becomes (.mts xa 0x014#12) { s.core with cause := v &&& 0x3FF#64 } ∧
      becomes (.mts xa 0x015#12) { s.core with faddr := v } ∧
      becomes (.mts xa 0x016#12) { s.core with finfo := v } ∧
      becomes (.mts xa 0x022#12) { s.core with dirtyT := v.setWidth 32 } ∧
      (s.core.kind = .compute →
        becomes (.mts xa 0x023#12) { s.core with dirtyA := v.setWidth 8 } ∧
        becomes (.mts xa 0x024#12) { s.core with dirtyW := v.setWidth 4 }) ∧
      (∀ i : Fin 4, becomes (.mts xa (BitVec.ofNat 12 (0x028 + i))) { s.core with scr := s.core.scr.set i v }) ∧
      (v.toNat % 4096 = 0 → v.toNat < 2 ^ 52 → becomes (.mtsTvec xa) { s.core with tvec := v, dfltTable := false }) ∧
      (∀ p ∈ s.card.partitions, p.colour = s.core.colour.toNat → p.asidFirst ≤ v.toNat → v.toNat ≤ p.asidLast → 0 < v.toNat →
        becomes (.mtsAsid xa) { s.core with asid := v.setWidth 12 })) ∧
    (∀ (k : Fin 8) (f : Nat) (d : CopyChannel), channelAllowed s k →
      let c := s.core.copies[k]
      (f, d) ∈ [(0, { c with src := v &&& 0xFFFFFFFFFFFFF#64 }), (1, { c with dst := v &&& 0xFFFFFFFFFFFFF#64 }),
        (2, { c with rows := v &&& 0xFFFFFF#64 }), (3, { c with rowbytes := v &&& 0xFFFFFFF#64 }), (4, { c with sstride := v }),
        (5, { c with dstride := v }), (6, { c with flags := v &&& 0x7#64 }), (7, { c with rz := v &&& 0xFFFFFFFFFFFFF#64 })] →
        becomes (.mts xa (BitVec.ofNat 12 (0x200 + 16 * k + f))) { s.core with copies := s.core.copies.set k d }) ∧
    (1 ≤ v.toNat % 128 → v.toNat % 128 ≤ 64 → 4 ≤ v.toNat / 128 % 256 → v.toNat / 128 % 256 ≤ 128 → v.toNat / 128 % 4 = 0 →
      becomes (.mtsShape h xa) { s.core with h := s.core.h.set h.toNat (v &&& 0x7FFF#64) }) ∧
    (let faults (i : Instr) (x : Exc) : Prop := exec i s = .next (s.enter x)
     (∀ n < 4096, (∀ p ∈ specialRegisters s, p.1 ≠ n) → faults (.mts xa (BitVec.ofNat 12 n)) ⟨1, 5, s.core.pc, 0x06#64⟩) ∧
     (∀ n ∈ [0x000, 0x001, 0x002, 0x008, 0x009, 0x00A, 0x00B, 0x00C, 0x00D, 0x00E, 0x00F, 0x021],
       faults (.mts xa (BitVec.ofNat 12 n)) ⟨1, 5, s.core.pc, 0x06#64⟩) ∧
     (∀ k < 8, channelAllowed s k → faults (.mts xa (BitVec.ofNat 12 (0x208 + 16 * k))) ⟨1, 5, s.core.pc, 0x06#64⟩) ∧
     (∀ k < 8, ∀ f ≤ 8, ¬channelAllowed s k → faults (.mts xa (BitVec.ofNat 12 (0x200 + 16 * k + f))) ⟨1, 3, s.core.pc, 0x06#64⟩) ∧
     (sup = true → s.core.kind ≠ .compute → ∀ n ∈ [0x023, 0x024], faults (.mts xa (BitVec.ofNat 12 n)) ⟨6, 0, 0#64, 0x06#64⟩) ∧
     (let range : Exc := ⟨4, 2, Config.faultAddress s.draws, 0x06#64⟩
      (v.toNat % 128 = 0 ∨ 64 < v.toNat % 128 ∨ v.toNat / 128 % 256 < 4 ∨ 128 < v.toNat / 128 % 256 ∨ v.toNat / 128 % 4 ≠ 0 →
        faults (.mtsShape h xa) range) ∧
      (sup = true → v.toNat % 4096 ≠ 0 ∨ 2 ^ 52 ≤ v.toNat → faults (.mtsTvec xa) range) ∧
      (sup = true → v.toNat = 0 ∨ (∀ p ∈ s.card.partitions, p.colour = s.core.colour.toNat → v.toNat < p.asidFirst ∨ p.asidLast < v.toNat) →
        faults (.mtsAsid xa) range))) ∧
    ∃ t, exec (.mtsPs xa) s = .next t ∧ t = s.onward { s.core with ps := t.core.ps } ∧ ∀ i < 64, t.core.ps.getLsbD i =
      if i = 15 then sup
      else if i = 16 then (if sup then v.getLsbD 16 else s.core.ps.getLsbD 16)
      else if 3 ≤ i ∧ i ≤ 7 then (if sup then v.getLsbD i else s.core.ps.getLsbD i && !v.getLsbD i)
      else decide (i = 1 ∨ i = 2 ∨ (8 ≤ i ∧ i ≤ 14)) && v.getLsbD i)

/-- R320, R321, R324, R325, R335, R424: HALT waits for the strand's older work, then releases at SYSTEM and ends the strand; SLEEP gives 1 for a
message and 0 for the time, and waits while it has neither; CTXMARK clears the changed marks; PREACK writes the image's words and its changed
granules, does so too, stops the strand, and the firmware counts its image and keeps the causes that it still held; an image address that no pre-
emption entry gave is class 13 detail 0x02. The places in a held contribution (log entry 23), one collective seq for all 16 tags (33) and the
write of an image byte by byte without a permission check (35) are the model's choices. R70, R72, R305, R323: a privileged instruction in user
mode is class 1 detail 0x06 with its PC and its opcode. -/
def Obligations.SystemResults : Prop :=
  (∀ (s : State) (xd xa : BitVec 6),
    (s.core.supervisor = true → s.haltReady = true → s.releaseHeld 3 = [] →
      exec .halt s = .next { s.releaseAt 3 with core := { (s.releaseAt 3).core with
        run := .ended, waiting := none, waitFrom := none, fw := [], parked := .free } }) ∧
    (s.core.supervisor = true → s.haltReady = false → exec .halt s = .next (s.waitsAt Wait.atHalt)) ∧
    (s.core.inbox ≠ [] → ∃ t, exec (.sleep xd xa) s = .next t ∧ s.WritesX t xd 1#64 0#5) ∧
    (s.core.inbox = [] → (s.core.xr xa).toNat ≤ s.core.cycle.toNat → ∃ t, exec (.sleep xd xa) s = .next t ∧ s.WritesX t xd 0#64 0#5) ∧
    (s.core.inbox = [] → s.core.cycle.toNat < (s.core.xr xa).toNat → exec (.sleep xd xa) s = .next (s.waitsAt Wait.plain)) ∧
    (s.core.supervisor = true → exec .ctxmark s = .next (s.onward { s.core with
      dirtyT := 0#32, dirtyA := 0#8, dirtyW := 0#4, stash := { s.core.stash with changed := 0#2048 } })) ∧
    (s.core.supervisor = true → s.core.imageAddr = some (s.core.xr xa) → s.drained = true →
      ∃ t, exec (.preack xa) s = .next t ∧ t.core.run = .stopped ∧ t.core.dirtyT = 0#32 ∧ t.core.dirtyA = 0#8 ∧ t.core.dirtyW = 0#4 ∧
        t.core.stash.changed = 0#2048 ∧ t.core.imageAddr = none ∧ t.core.x = s.core.x ∧ t.core.t = s.core.t ∧ t.core.a = s.core.a ∧
        t.core.w = s.core.w ∧ t.core.epc = s.core.epc ∧ t.core.ps = s.core.ps ∧ t.core.pc = s.core.pc ∧
        (let c := s.core
         let n := ((s.card.strandInfo c.launchOf c.strandIndex).map StrandInfo.images).getD 0 + 1
         let full (n : Nat) (bs : List Byte) : List Byte := bs.take n ++ List.replicate (n - bs.length) 0#8
         let img := (c.xr xa).toNat
         let parts : List (Nat × List Byte) := [(0x000, wordBytes (1 + n * 2 ^ 32)), (0x008, wordBytes c.serial.toNat),
           (0x010, wordBytes c.seed.toNat), (0x018, toBytes 256 c.stash.changed.toNat), (0x118, wordBytes c.cycle.toNat),
           (0x120, full 256 (c.windowCounts.flatMap WindowCount.entry)), (0x220, c.copies.toList.flatMap fun k => wordBytes k.nextSeq),
           (0x260, (List.replicate 16 (wordBytes c.linkSeq)).flatten), (0x300, full 2048 (s.recordHeld.flatMap HeldArrival.entry)),
           (0xB00, full 1024 (c.inbox.flatMap Message.bytes)), (0xF40, wordBytes c.inbox.length)]
         let granules := (List.range 2048).filter fun g => c.stash.changed.getLsbD g
         let u := parts.foldl (fun u p => u.putImage (img + p.1) p.2) s
         let v := granules.foldl (fun v g => v.putImage (img + 0x4000 + 128 * g) (readBytes c.stash.bytes (128 * g) 128)) u
         t.card.hbm = v.card.hbm ∧ t.card.l2 = v.card.l2 ∧ t.peer = v.peer ∧ t.host = v.host) ∧
        ∀ i, s.card.strandInfo s.core.launchOf s.core.strandIndex = some i → t.card.strandInfo s.core.launchOf s.core.strandIndex =
          some { i with images := i.images + 1, stopped := true, kept := i.kept ++ s.core.machineChecks ++ s.core.reports, code := s.core.codeView }) ∧
    (s.core.supervisor = true → s.core.imageAddr ≠ some (s.core.xr xa) →
      exec (.preack xa) s = .next (s.enter ⟨13, 2, s.core.xr xa, 0x0A#64⟩))) ∧
  (∀ (s : State) (xa xb : BitVec 6), s.core.supervisor = false →
    let traps (i : Instr) (op : Word) : Prop := exec i s = .next (s.enter ⟨1, 6, s.core.pc, op⟩)
    traps .halt 0x01#64 ∧ traps .eret 0x04#64 ∧ traps .ctxmark 0x08#64 ∧ traps (.preack xa) 0x0A#64 ∧ traps (.mtsAsid xa) 0x06#64 ∧
    traps (.mtsTvec xa) 0x06#64 ∧ traps (.stmapAperture xa xb) 0x0D#64 ∧
    ∀ n ∈ [0x013, 0x014, 0x015, 0x016, 0x022, 0x023, 0x024, 0x028, 0x029, 0x02A, 0x02B], traps (.mts xa (BitVec.ofNat 12 n)) 0x06#64)

/-- R300-R306: OBJDECL appends the descriptor's object to the cluster's table, OBJDROP takes one out, after the dirty bytes of the object have
gone down and its copies have become stale; STMAP maps a window, STUNMAP writes it back and unmaps it, STFLUSH writes windows back. A bad
descriptor, an overlap, a full table, a bad window and a core without a cluster take the exceptions of R301, R304 and R305. -/
def Obligations.ObjectAndWindowResults : Prop :=
  ∀ (s : State) (xa xb : BitVec 6) (index : BitVec 8) (imm : BitVec 32) (sel : BitVec 4) (k : Nat) (o : ObjEntry) (w : Window),
    let a := s.core.xr xa
    let b := s.core.xr xb
    let size := 2 ^ (imm.extractLsb' 0 5).toNat
    let readable : Prop := s.core.kind = .compute ∧ clusterOf s.core.num = some k ∧ a.toNat % 32 = 0 ∧ a.toNat < 2 ^ 52 ∧
      s.accessFault .load a.toNat (a.toNat + 32) = none ∧ s.loadClear (a.toNat, a.toNat + 32) = true
    (readable → objectOf (s.descriptor a.toNat) s.core.launchId = some o → (∀ p ∈ (s.clusterAt k).objects, overlap p.box o.box = false) →
      (s.clusterAt k).objects.length < 64 → s.storeClear o.box = true → s.drained = true →
      let t := ((s.touchRange a.toNat 32).flushObject k o false).staleObject k o
      let u := t.setCluster k { t.clusterAt k with objects := (t.clusterAt k).objects ++ [o] }
      s.heldBy u = [] → exec (.objdecl xa) s = .next u.retire) ∧
    (readable → (s.clusterAt k).objects.find? (fun p => p.base == field (s.descriptor a.toNat) 0 52 && p.launch == s.core.launchId) = some o →
      s.storeClear o.box = true → s.drained = true →
      s.heldBy ((s.touchRange a.toNat 32).dropObject k o) = [] → exec (.objdrop xa) s = .next ((s.touchRange a.toNat 32).dropObject k o).retire) ∧
    (12 ≤ (imm.extractLsb' 0 5).toNat → (imm.extractLsb' 0 5).toNat ≤ 18 → b.toNat + size ≤ 2 ^ 18 →
      (s.core.supervisor = true ∨ b.toNat + size ≤ s.core.limits.stash * 1024) → a.toNat % size = 0 → b.toNat % size = 0 → a.toNat < 2 ^ 52 →
      overlap (a.toNat, a.toNat + size) s.core.apertureBox = false → s.core.stash.window index.toNat = none →
      (∀ v ∈ s.core.stash.mapped, overlap v.box (a.toNat, a.toNat + size) = false ∧
        overlap (v.off, v.off + 2 ^ v.lg) (b.toNat, b.toNat + size) = false) → s.drained = true →
      w = ⟨if shared a.toNat then 0 else s.core.asid.toNat, a.toNat, b.toNat, (imm.extractLsb' 0 5).toNat⟩ →
      exec (.stmap index xa xb imm) s = .next (s.onward { s.core with stash := (s.core.stash.clearGranules w).setWindow index.toNat (some w) })) ∧
    (s.core.supervisor = true → 1 ≤ b.toNat → b.toNat ≤ 256 → b.toNat ≤ s.sheafCores.length → a.toNat % 2 ^ 18 = 0 →
      a.toNat + b.toNat * 2 ^ 18 ≤ 2 ^ 52 → (∀ v ∈ s.core.stash.mapped, overlap v.box (a.toNat, a.toNat + b.toNat * 2 ^ 18) = false) →
      s.drained = true →
      exec (.stmapAperture xa xb) s = .next (s.onward { s.core with
        stash := { s.core.stash with aperture := some ⟨a.toNat, s.sheafCores.take b.toNat⟩ } })) ∧
    (s.core.stash.window index.toNat = none → exec (.stunmap index) s = .next s.retire) ∧
    (s.core.stash.window index.toNat = some w → s.drained = true → s.storeClear w.box = true →
      let t := s.writeBackWindow w
      let u := t.withStash ((t.core.stash.clearGranules w).setWindow index.toNat none)
      s.heldBy u = [] → exec (.stunmap index) s = .next u.retire) ∧
    (s.drained = true → s.storeClear (windowsBox (s.core.stash.masked index)) = true →
      let u := (s.core.stash.masked index).foldl (fun t v => t.flushWindow (sel == 1#4) v) s
      s.heldBy u = [] → exec (.stflush index sel) s = .next u.retire) ∧
    (let faults (i : Instr) (x : Exc) : Prop := exec i s = .next (s.enter x)
     let address (i : Instr) (op : Word) : Prop :=
       (s.core.kind ≠ .compute → faults i ⟨6, 0, 0#64, op⟩) ∧
       (s.core.kind = .compute → clusterOf s.core.num ≠ none →
         (a.toNat % 32 ≠ 0 → faults i ⟨4, 0, a, op⟩) ∧
         (a.toNat % 32 = 0 → 2 ^ 52 ≤ a.toNat → faults i ⟨4, 1, a, op⟩) ∧
         (a.toNat % 32 = 0 → a.toNat < 2 ^ 52 → ∀ b d, s.accessFault .load a.toNat (a.toNat + 32) = some (b, d) →
           faults i ⟨3, d, BitVec.ofNat 64 b, op⟩))
     address (.objdecl xa) 0x0B#64 ∧ address (.objdrop xa) 0x0C#64 ∧
     (readable →
       (objectOf (s.descriptor a.toNat) s.core.launchId = none → faults (.objdecl xa) ⟨4, 6, a, 0x0B#64⟩) ∧
       (objectOf (s.descriptor a.toNat) s.core.launchId = some o → (∃ p ∈ (s.clusterAt k).objects, overlap p.box o.box = true) →
         faults (.objdecl xa) ⟨4, 7, a, 0x0B#64⟩) ∧
       (objectOf (s.descriptor a.toNat) s.core.launchId = some o → (∀ p ∈ (s.clusterAt k).objects, overlap p.box o.box = false) →
         64 ≤ (s.clusterAt k).objects.length → faults (.objdecl xa) ⟨4, 8, a, 0x0B#64⟩) ∧
       ((∀ p ∈ (s.clusterAt k).objects, p.base ≠ field (s.descriptor a.toNat) 0 52 ∨ p.launch ≠ s.core.launchId) →
         faults (.objdrop xa) ⟨4, 6, a, 0x0C#64⟩)) ∧
     (let lg := (imm.extractLsb' 0 5).toNat
      let info : Word := BitVec.ofNat 64 (index.toNat * 256 + 0x0D)
      let map := faults (.stmap index xa xb imm)
      let sized : Prop := 12 ≤ lg ∧ lg ≤ 18 ∧ b.toNat + size ≤ 2 ^ 18 ∧ (s.core.supervisor = true ∨ b.toNat + size ≤ s.core.limits.stash * 1024)
      let aligned : Prop := a.toNat % size = 0 ∧ b.toNat % size = 0
      let clear := overlap (a.toNat, a.toNat + size) s.core.apertureBox
      (¬sized → map ⟨4, 2, a, info⟩) ∧ (sized → ¬aligned → map ⟨4, 0, a, info⟩) ∧ (sized → aligned → 2 ^ 52 ≤ a.toNat → map ⟨4, 1, a, info⟩) ∧
      (sized → aligned → a.toNat < 2 ^ 52 → clear = true →
        map (if s.core.supervisor then ⟨4, 7, a, info⟩ else ⟨1, 6, s.core.pc, 0x0D#64⟩)) ∧
      (sized → aligned → a.toNat < 2 ^ 52 → clear = false →
        s.core.stash.window index.toNat ≠ none ∨ (∃ v ∈ s.core.stash.mapped, overlap v.box (a.toNat, a.toNat + size) = true ∨
          overlap (v.off, v.off + 2 ^ v.lg) (b.toNat, b.toNat + size) = true) → map ⟨4, 7, a, info⟩) ∧
      (s.core.supervisor = true →
        let bind := faults (.stmapAperture xa xb)
        let info : Word := 0x80D#64
        let members : Prop := 1 ≤ b.toNat ∧ b.toNat ≤ 256 ∧ b.toNat ≤ s.sheafCores.length
        (¬members → bind ⟨4, 2, a, info⟩) ∧ (members → a.toNat % 2 ^ 18 ≠ 0 → bind ⟨4, 0, a, info⟩) ∧
        (members → a.toNat % 2 ^ 18 = 0 → 2 ^ 52 < a.toNat + b.toNat * 2 ^ 18 → bind ⟨4, 1, a, info⟩) ∧
        (members → a.toNat % 2 ^ 18 = 0 → a.toNat + b.toNat * 2 ^ 18 ≤ 2 ^ 52 →
          (∃ v ∈ s.core.stash.mapped, overlap v.box (a.toNat, a.toNat + b.toNat * 2 ^ 18) = true) → bind ⟨4, 7, a, info⟩))))

/-- R122, R123, R211, R213, R215, R216, R219: a reduction or a sketch post enters the post queue, with its operands and copies of its tiles,
while that has room; nothing else changes until it is sent. That a RED does not wait at retire for an older overlapping one, which the queue
keeps before it, is the model's reading of R124 (log entry 29). R73, R123, R129, R204, R211, R213, R215, R216, R219, R227: what a sketch post
traps on at dispatch, in order: a command processor, an unaligned or not canonical record address, the tiles, its operands, a readonly object at
the record. With no check that fails it waits for room in the post queue and in the post buffer, as a RED does for the queue. A posting
instruction of a parked strand's handler waits too (log entry 46). -/
def Obligations.PostedWorkResults : Prop :=
  (∀ (s : State) (xa xb xc : BitVec 6) (scope op type seedset : BitVec 2) (depth : BitVec 3) (lgw ta tk : BitVec 5) (scale : BitVec 8)
    (sel : BitVec 4),
    let a := s.core.xr xa
    let b := s.core.xr xb
    let v := s.core.tr ta
    let k := s.core.tr tk
    let n := v.rows * v.count
    let posts (i : Instr) (kind : PostKind) (opcode : BitVec 8) (mod : BitVec 19) (sc : Nat) (oper : Word) (values keys : Tile) : Prop :=
      values.rows * values.rowbytes + keys.rows * keys.rowbytes + s.core.posts.foldl (fun m p => m + p.buffered) 0 ≤ 32768 →
      exec i s = .next (s.onward { s.core with posts := s.core.posts ++
        [⟨kind, opcode, mod, s.core.num, s.core.strand, s.core.asid.toNat, s.core.colour.toNat, s.core.supervisor, sc, a.toNat, oper, values, keys, 0⟩] })
    let goes (size : Nat) : Prop :=
      s.core.posts.length < 32 ∧ s.core.parked = .free ∧ a.toNat < 2 ^ 52 ∧ s.readonlyByte a.toNat (a.toNat + size) = none
    (∀ size, size = (if type = 1#2 then 8 else 4) → goes size → s.postClear (a.toNat, a.toNat + size) = true → a.toNat % size = 0 →
      (s.inStash a.toNat = true → s.accessFault .store a.toNat (a.toNat + size) = none) →
      posts (.red xa xb scope op type) (.red op.toNat type.toNat) 0x5C#8
        (scope.setWidth 19 <<< 2 ||| op.setWidth 19 <<< 8 ||| type.setWidth 19 <<< 10) scope.toNat b Tile.empty Tile.empty) ∧
    (goes 64 → s.storeClear (a.toNat, a.toNat + 64) = true → a.toNat % 64 = 0 → s.core.kind ≠ .command →
      (depth ∈ [3#3, 5#3, 7#3] → 3 ≤ lgw.toNat → lgw.toNat ≤ 26 → -64 ≤ scale.toInt → scale.toInt ≤ 63 →
        1 ≤ (s.core.xr xc).toNat → (s.core.xr xc).toNat < 2 ^ 40 → b.toNat % 128 = 0 →
        b.toNat + 4 * 2 ^ lgw.toNat * depth.toNat ≤ 2 ^ 52 →
        (b.toNat + 4 * 2 ^ lgw.toNat * depth.toNat ≤ a.toNat ∨ a.toNat + 64 ≤ b.toNat) →
        posts (.skinit xa xb xc depth lgw scale seedset) (.skInit b (s.core.xr xc)
          (depth.setWidth 32 ||| lgw.setWidth 32 <<< 8 ||| scale.setWidth 32 <<< 16 ||| seedset.setWidth 32 <<< 24)) 0xB0#8 0#19 2 b
          Tile.empty Tile.empty) ∧
      posts (.skzero xa) .skZero 0xB1#8 0#19 2 0#64 Tile.empty Tile.empty ∧
      (tilesAllowed s [ta] → v.rows ≠ 0 → v.fmt ∈ [2#5, 3#5, 4#5, 10#5] → b.toNat + n ≤ 2 ^ 40 → sel ≠ 1#4 →
        posts (.skupd xa ta xb tk sel) (.skUpd false b) 0xB2#8 (sel.setWidth 19 <<< 4) 2 b v Tile.empty) ∧
      (tilesAllowed s [ta, tk] → v.rows ≠ 0 → v.fmt ∈ [2#5, 3#5, 4#5, 10#5] → k.rows ≠ 0 → k.fmt ∈ [10#5, 11#5] → n ≤ k.rows * k.count →
        posts (.skupd xa ta xb tk 1#4) (.skUpd true b) 0xB2#8 0x10#19 2 b v k) ∧
      (b.toNat < 2 ^ 52 → posts (.skadd xa xb) (.skAdd b.toNat) 0xB4#8 0#19 2 b Tile.empty Tile.empty) ∧
      ((∃ m p d, decodeFloat fp32 (b.toNat % 2 ^ 32) = .fin m p d) →
        posts (.skmul xa xb) (.skMul (b.setWidth 32)) 0xB5#8 0#19 2 b Tile.empty Tile.empty))) ∧
  (∀ (s : State) (xa xb xc : BitVec 6) (scope op type seedset : BitVec 2) (depth : BitVec 3) (lgw ta tk : BitVec 5) (scale : BitVec 8)
    (sel : BitVec 4),
    let a := s.core.xr xa
    let b := s.core.xr xb
    let v := s.core.tr ta
    let k := s.core.tr tk
    let n := v.rows * v.count
    let size := if type = 1#2 then 8 else 4
    let x (cls d : Nat) (role reg o : Nat) : Exc := ⟨cls, d, if cls = 2 then 0#64 else a, faultInfo 0 6 role reg o⟩
    let readonly (o : Nat) : List (Prop × Exc) := [(s.readonlyByte a.toNat (a.toNat + 64) ≠ none, x 3 6 0 0 o)]
    let geometry : Prop := depth ∈ [3#3, 5#3, 7#3] ∧ 3 ≤ lgw.toNat ∧ lgw.toNat ≤ 26 ∧ -64 ≤ scale.toInt ∧ scale.toInt ≤ 63 ∧
      1 ≤ (s.core.xr xc).toNat ∧ (s.core.xr xc).toNat < 2 ^ 40 ∧ b.toNat % 128 = 0 ∧
      b.toNat + 4 * 2 ^ lgw.toNat * depth.toNat ≤ 2 ^ 52 ∧ (b.toNat + 4 * 2 ^ lgw.toNat * depth.toNat ≤ a.toNat ∨ a.toNat + 64 ≤ b.toNat)
    let waits (i : Instr) (copied : Nat) (range : Nat × Nat) : Prop :=
      32 ≤ s.core.posts.length ∨ 32768 < copied + s.core.posts.foldl (fun m p => m + p.buffered) 0 ∨ s.storeClear range = false ∨
        s.core.parked ≠ .free → exec i s = .next (s.waitsAt Wait.plain)
    let record : Nat × Nat := (a.toNat, a.toNat + 64)
    (a.toNat < 2 ^ 52 → a.toNat % size = 0 → (s.inStash a.toNat = true → s.accessFault .store a.toNat (a.toNat + size) = none) →
      (s.inStash a.toNat = false → s.readonlyByte a.toNat (a.toNat + size) = none) →
      32 ≤ s.core.posts.length ∨ s.postClear (a.toNat, a.toNat + size) = false ∨ s.core.parked ≠ .free →
      exec (.red xa xb scope op type) s = .next (s.waitsAt Wait.plain)) ∧
    s.trapsFirst (.skinit xa xb xc depth lgw scale seedset) (sketchChecks s a [] 0 0xB0 ++ [(¬geometry, x 7 3 0 0 0xB0)] ++ readonly 0xB0)
      (waits (.skinit xa xb xc depth lgw scale seedset) 0 record) ∧
    s.trapsFirst (.skzero xa) (sketchChecks s a [] 0 0xB1 ++ readonly 0xB1) (waits (.skzero xa) 0 record) ∧
    s.trapsFirst (.skadd xa xb) (sketchChecks s a [b] 0 0xB4 ++ readonly 0xB4) (waits (.skadd xa xb) 0 record) ∧
    s.trapsFirst (.skmul xa xb) (sketchChecks s a [] 0 0xB5 ++
      [((∀ m p d, decodeFloat fp32 (b.toNat % 2 ^ 32) ≠ .fin m p d), x 7 4 0 0 0xB5)] ++ readonly 0xB5) (waits (.skmul xa xb) 0 record) ∧
    (s.core.supervisor = true ∨ (ta.toNat < s.core.limits.tiles ∧ tk.toNat < s.core.limits.tiles) →
      let values : List (Prop × Exc) := [(v.rows = 0, x 2 0 1 ta.toNat 0xB2), (v.fmt ∉ [2#5, 3#5, 4#5, 10#5], x 2 1 1 ta.toNat 0xB2)]
      (sel ≠ 1#4 → s.trapsFirst (.skupd xa ta xb tk sel) (sketchChecks s a [] 0 0xB2 ++ values ++
        [(2 ^ 40 < b.toNat + n, x 7 6 0 0 0xB2)] ++ readonly 0xB2) (waits (.skupd xa ta xb tk sel) (v.rows * v.rowbytes) record)) ∧
      s.trapsFirst (.skupd xa ta xb tk 1#4) (sketchChecks s a [] 0 0xB2 ++ values ++
        [(k.rows = 0, x 2 0 4 tk.toNat 0xB2), (k.fmt ∉ [10#5, 11#5], x 2 1 4 tk.toNat 0xB2), (k.rows * k.count < n, x 2 7 4 tk.toNat 0xB2)] ++
        readonly 0xB2) (waits (.skupd xa ta xb tk 1#4) (v.rows * v.rowbytes + k.rows * k.rowbytes) record)))

/-- R205, R214, R217, R218: SKQRY writes, for each key, the median of its signed counters times 2^scale, rounded once to FP32; SKSTAT reads the
record's words; both need the record and its counters readable and writable (R228), and leave what they read in L2 (R375). SKFENCE ends once the
strand's sketch posts are applied. R214, R217, R221, R227, R228: what SKQRY and SKSTAT trap on: at dispatch as a sketch post, then, once no
unperformed work of the strand meets the record, the record's page, its place and its validity, the counters' pages and place, and for SKQRY the
key limit; each is precise, with xa in s.faddr. -/
def Obligations.SketchReadResults : Prop :=
  (∀ (s : State) (td tk : BitVec 5) (xd xa xb : BitVec 6) (shape : BitVec 3) (r : Record) (key : Nat → Nat) (median : Nat → Int),
    let a := (s.core.xr xa).toNat
    let asid := s.core.asid.toNat
    let colour := s.core.colour.toNat
    let rows := s.core.hRows shape
    let cols := s.core.hRowbytes shape / 4
    let word (i n : Nat) : Word := BitVec.ofNat 64 (ofBytes (s.homeBytes asid colour (a + i) n))
    let counters (k : Nat) : List Int := (List.range r.depth).map fun i =>
      (if hashNeg r.seedset i k then -1 else 1) * s.counter asid colour (r.base + 4 * (2 ^ r.lgw * i + hashBucket r.lgw r.seedset i k))
    let oct := some (octantOf s.core.num)
    let reads := (List.range (rows * cols)).foldl (fun u j => (List.range r.depth).foldl (fun u i =>
      u.unitRead oct asid colour (r.base + 4 * (2 ^ r.lgw * i + hashBucket r.lgw r.seedset i (key j))) 4) u) (s.unitRead oct asid colour a 64)
    let answers (i : Instr) : Prop :=
      (∀ j < rows * cols, key j < r.klimit ∧ median j ∈ counters (key j) ∧
        ((counters (key j)).filter fun c => decide (c < median j)).length ≤ r.depth / 2 ∧
        ((counters (key j)).filter fun c => decide (median j < c)).length ≤ r.depth / 2) →
      ∃ t, exec i s = .next t ∧ reads.WritesT t td (tileOf rows (s.core.hRowbytes shape) 2#5 0#4 fun m n =>
        (roundVal fp32 .nearest false (scaledInt (median (m * cols + n)) r.scale)).code) 0#5 false
    (s.core.kind ≠ .command → a % 64 = 0 → a < 2 ^ 52 → s.loadClear (a, a + 64) = true →
      s.recordCheck .query asid colour s.core.supervisor none a = .ok r →
      s.areaCheck .query asid colour s.core.supervisor r.base r.arrayBytes = .ok () →
      (tilesAllowed s [td] → s.core.hRowbytes shape % 4 = 0 → (s.core.xr xb).toNat + rows * cols ≤ 2 ^ 40 →
        (∀ j, key j = (s.core.xr xb).toNat + j) → answers (.skqry td xa xb tk 0#4 shape)) ∧
      (tilesAllowed s [td, tk] → s.core.hRowbytes shape % 4 = 0 →
        let k := s.core.tr tk
        k.rows ≠ 0 → k.Shaped → k.fmt ∈ [10#5, 11#5] → rows * cols ≤ k.rows * k.count →
        (∀ j < rows * cols, (key j : Int) = intOf k.fmt (k.elems.flatten.getD j 0)) → answers (.skqry td xa xb tk 1#4 shape)) ∧
      (∃ t, exec (.skstat xd xa 0#4) s = .next t ∧ (s.unitRead oct asid colour a 64).WritesX t xd (word 16 8) 0#5) ∧
      (∃ t, exec (.skstat xd xa 1#4) s = .next t ∧ (s.unitRead oct asid colour a 64).WritesX t xd (word 24 8) 0#5) ∧
      (∃ t, exec (.skstat xd xa 2#4) s = .next t ∧ (s.unitRead oct asid colour a 64).WritesX t xd (word 32 4) 0#5)) ∧
    (s.core.kind ≠ .command → (∀ p ∈ s.ownPosts, p.isSketch = false) → exec .skfence s = .next (s.onward s.core)) ∧
    (s.core.kind ≠ .command → (∃ p ∈ s.ownPosts, p.isSketch = true) → exec .skfence s = .next (s.waitsAt { Wait.plain with sketches := true }))) ∧
  (∀ (s : State) (td tk : BitVec 5) (xd xa xb : BitVec 6) (shape : BitVec 3) (sel : BitVec 4) (key : Nat → Int),
    let a := s.core.xr xa
    let va := a.toNat
    let asid := s.core.asid.toNat
    let colour := s.core.colour.toNat
    let k := s.core.tr tk
    let n := s.core.hRows shape * (s.core.hRowbytes shape / 4)
    let r := s.record asid colour va
    let denied := s.memoryDenied .query asid colour s.core.supervisor
    let away := s.notLocal asid colour
    let x (cls d reg o : Nat) : Exc := ⟨cls, d, a, faultInfo 0 6 0 reg o⟩
    let precise (i : Instr) (reg o : Nat) (keys : Prop) : Prop :=
      (s.loadClear (va, va + 64) = false → exec i s = .next (s.waitsAt { s.loadWait (va, va + 64) with record := some va })) ∧
      (s.loadClear (va, va + 64) = true →
        (∀ b d, denied va 64 = some (b, d) → exec i s = .next (s.enter (x 3 d reg o))) ∧
        (denied va 64 = none →
          s.trapsFirst i [(away va 64 ≠ none, x 7 5 reg o), (r.valid va = false, x 7 0 reg o)]
            ((∀ b d, denied r.base r.arrayBytes = some (b, d) →
                exec i s = .next ((s.countAbsent asid colour 3 d b).enter (x 3 d reg o))) ∧
             (denied r.base r.arrayBytes = none →
               s.trapsFirst i [(away r.base r.arrayBytes ≠ none, x 7 5 reg o), (keys, x 7 1 reg o)] True))))
    let outside : Prop := ∃ j < n, ¬(0 ≤ key j ∧ key j < r.klimit)
    s.trapsFirst (.skstat xd xa sel) (sketchChecks s a [] 0 0xB7) (precise (.skstat xd xa sel) 0 0xB7 False) ∧
    (s.core.supervisor = true ∨ (td.toNat < s.core.limits.tiles ∧ tk.toNat < s.core.limits.tiles) →
      (sel ≠ 1#4 → (∀ j, key j = ((s.core.xr xb).toNat + j : Nat)) → s.trapsFirst (.skqry td xa xb tk sel shape)
        (sketchChecks s a [] td.toNat 0xB3 ++ [(2 ^ 40 < (s.core.xr xb).toNat + n, x 7 6 td.toNat 0xB3)])
        (precise (.skqry td xa xb tk sel shape) td.toNat 0xB3 outside)) ∧
      (k.Shaped → (∀ j < n, key j = intOf k.fmt (k.elems.flatten.getD j 0)) → s.trapsFirst (.skqry td xa xb tk 1#4 shape)
        (sketchChecks s a [] td.toNat 0xB3 ++ [(k.rows = 0, ⟨2, 0, 0#64, faultInfo 0 6 4 tk.toNat 0xB3⟩),
          (k.fmt ∉ [10#5, 11#5], ⟨2, 1, 0#64, faultInfo 0 6 4 tk.toNat 0xB3⟩), (k.rows * k.count < n, ⟨2, 7, 0#64, faultInfo 0 6 4 tk.toNat 0xB3⟩)])
        (precise (.skqry td xa xb tk 1#4 shape) td.toNat 0xB3 outside))))

/-- R245, R246, R248-R250: GQPUSH posts a copy of its tile and takes one from the strand's window count; GQPOP takes the oldest entry of a lane,
GQPOPS the oldest of every lane with their FP32 sums in lane order, and each starts the window counts on their way back; GQSTAT reads the count
or the entries held. A push without a window count, room in the post queue or room in its buffer waits, and so does a pop of an empty lane. The
class-8 faults of an undeclared queue, a lane outside its set, an unfit tile, a pop elsewhere than on the receiver, entries that differ, a format
that is not FP32 and a seventeenth pair follow. The free s.faddr of class 8 (log entry 21), the role and tile of its s.finfo (30), the row of an
element fault of GQPOPS (31), the wait of a parked strand's push (46), the bits of the only entry of a one-lane queue (67) and the order of two
faults of one instruction (76) are the model's choices. -/
def Obligations.GradientQueueResults : Prop :=
  ∀ (s : State) (xa xd : BitVec 6) (ta td : BitVec 5) (index : BitVec 8) (imm : BitVec 32) (rel acq : Bool) (scope : BitVec 2)
    (g : GradQueue) (lane : GradLane),
    let q := index.toNat
    let l := imm.toNat
    let a := s.core.tr ta
    let count := (s.core.windowCount q l).getD g.window
    let atReceiver := s.core.num = 256 + g.badger
    let fault (d role tile op : Nat) : Exc :=
      ⟨8, d, Config.faultAddress s.draws, BitVec.ofNat 64 (6 * 2 ^ 16 + role * 2 ^ 13 + tile * 2 ^ 8 + op)⟩
    let faults (i : Instr) (d role tile op : Nat) : Prop := exec i s = .next (s.enter (fault d role tile op))
    let push := Instr.gqpush xa ta index imm rel scope
    let pop := Instr.gqpop xd td index imm acq scope
    let pops := Instr.gqpops xd td index acq scope
    (s.core.kind ≠ .command → (s.card.queues.find? fun g => g.launch == s.core.launchOf && g.queue == q) = none →
      (tilesAllowed s [ta] → faults push 0 0 0 0xC0) ∧ (tilesAllowed s [td] → faults pop 0 0 td.toNat 0xC1 ∧ faults pops 0 0 td.toNat 0xC2) ∧
      faults (.gqstat xd index imm 0#4) 0 0 0 0xC3 ∧ faults (.gqstat xd index imm 1#4) 0 0 0 0xC3) ∧
    (s.core.kind ≠ .command → (s.card.queues.find? fun g => g.launch == s.core.launchOf && g.queue == q) = some g →
      (g.lanes.find? (fun x => x.lane == l) = none →
        (tilesAllowed s [ta] → faults push 1 0 0 0xC0) ∧ (tilesAllowed s [td] → faults pop 1 0 td.toNat 0xC1) ∧
        faults (.gqstat xd index imm 0#4) 1 0 0 0xC3 ∧ faults (.gqstat xd index imm 1#4) 1 0 0 0xC3) ∧
      (¬atReceiver → tilesAllowed s [td] → faults pops 3 0 td.toNat 0xC2) ∧
      (atReceiver → tilesAllowed s [td] → g.fmt ≠ 2#5 → faults pops 6 0 td.toNat 0xC2) ∧
      (atReceiver → tilesAllowed s [td] → g.fmt = 2#5 → (∃ x ∈ g.lanes, x.entries = []) → exec pops s = .next (s.waitsAt Wait.plain)) ∧
      (∀ e es, atReceiver → tilesAllowed s [td] → g.fmt = 2#5 → (g.lanes.map fun x => x.entries.head?) = (e :: es).map some →
        (∃ f ∈ es, f.tile.rows ≠ e.tile.rows ∨ f.key ≠ e.key) → faults pops 5 0 td.toNat 0xC2) ∧
      (g.lanes.find? (fun x => x.lane == l) = some lane →
        (tilesAllowed s [ta] → a.rows = 0 ∨ a.fmt ≠ g.fmt ∨ a.rowbytes ≠ g.rowbytes → faults push 2 1 ta.toNat 0xC0) ∧
        (tilesAllowed s [ta] → a.rows ≠ 0 → a.fmt = g.fmt → a.rowbytes = g.rowbytes → s.core.windowCount q l = none →
          16 ≤ s.core.windowCounts.length → faults push 8 0 0 0xC0) ∧
        (tilesAllowed s [ta] → a.rows ≠ 0 → a.fmt = g.fmt → a.rowbytes = g.rowbytes →
          ((s.core.windowCount q l).isSome = true ∨ s.core.windowCounts.length < 16) →
          count = 0 ∨ 32 ≤ s.core.posts.length ∨ s.core.parked ≠ .free ∨
            32768 < a.rows * a.rowbytes + s.core.posts.foldl (fun m p => m + p.buffered) 0 →
          exec push s = .next (s.waitsAt Wait.plain)) ∧
        (¬atReceiver → (tilesAllowed s [td] → faults pop 3 0 td.toNat 0xC1) ∧ faults (.gqstat xd index imm 1#4) 3 0 0 0xC3) ∧
        (tilesAllowed s [td] → atReceiver → lane.entries = [] → exec pop s = .next (s.waitsAt Wait.plain)) ∧
        (tilesAllowed s [ta] → a.rows ≠ 0 → a.fmt = g.fmt → a.rowbytes = g.rowbytes → 0 < count →
          ((s.core.windowCount q l).isSome = true ∨ s.core.windowCounts.length < 16) → s.core.posts.length < 32 → s.core.parked = .free →
          a.rows * a.rowbytes + s.core.posts.foldl (fun m p => m + p.buffered) 0 ≤ 32768 → s.releases rel scope.toNat →
          let r := s.released rel scope.toNat
          ∃ t, exec (.gqpush xa ta index imm rel scope) s = .next t ∧ t.core.windowCount q l = some (count - 1) ∧
            (∀ q' l', (q', l') ≠ (q, l) → t.core.windowCount q' l' = r.core.windowCount q' l') ∧
            t = r.onward { r.core with
              windowCounts := t.core.windowCounts
              posts := r.core.posts ++ [⟨.push q l, 0xC0#8, (if rel then 8#19 else 0#19) ||| scope.setWidth 19, s.core.num, s.core.strand,
                s.core.asid.toNat, s.core.colour.toNat, s.core.supervisor, scope.toNat, 0, s.core.xr xa, a, Tile.empty, 0⟩] }) ∧
        (∀ e rest, tilesAllowed s [td] → atReceiver → lane.entries = e :: rest →
          let u : State := { s with card := { s.card with
            queues := s.card.queues.map fun h => if h.launch = g.launch ∧ h.queue = g.queue then
              { g with lanes := g.lanes.map fun x => if x.lane = lane.lane then { lane with entries := rest } else x } else h
            returns := s.card.returns ++ [⟨e.core, e.sender, q, l, stopOf (256 + g.badger), s.card.packets⟩]
            packets := s.card.packets + 1 } }
          ∃ t, exec (.gqpop xd td index imm acq scope) s = .next t ∧
            (u.acquired acq scope.toNat).WritesTX t td { e.tile with quant := 0#4 } xd e.key 0#5) ∧
        (∃ t, exec (.gqstat xd index imm 0#4) s = .next t ∧ s.WritesX t xd (BitVec.ofNat 64 count) 0#5) ∧
        (atReceiver → ∃ t, exec (.gqstat xd index imm 1#4) s = .next t ∧ s.WritesX t xd (BitVec.ofNat 64 lane.entries.length) 0#5)) ∧
      (∀ e es, tilesAllowed s [td] → atReceiver → g.fmt = 2#5 → (g.lanes.map fun x => x.entries.head?) = (e :: es).map some →
        (∀ f ∈ es, f.tile.rows = e.tile.rows ∧ f.key = e.key) → e.tile.Shaped → e.tile.fmt = 2#5 →
        let sum (m n : Nat) : Nat × FpFlags := es.foldl (fun acc f =>
          let r := addVal false (decodeFloat fp32 acc.1) (decodeFloat fp32 (f.tile.el m n))
          let o := roundVal fp32 .nearest false r.1
          (o.code, acc.2 ||| r.2 ||| o.flags)) (e.tile.el m n, 0#5)
        let u := (g.lanes.zip (e :: es)).foldl (fun u p => u.takeEntry g p.1 p.2) s
        elementTraps s pops td e.tile.rows e.tile.count sum ∧
        ((∀ m < e.tile.rows, ∀ n < e.tile.count, (sum m n).2 &&& s.core.fptrap = 0#5) →
          ∃ t fl, exec (.gqpops xd td index acq scope) s = .next t ∧
            (∀ k, fl.getLsbD k = true ↔ ∃ m < e.tile.rows, ∃ n < e.tile.count, (sum m n).2.getLsbD k = true) ∧
            (u.acquired acq scope.toNat).WritesTX t td (tileOf e.tile.rows e.tile.rowbytes 2#5 0#4 fun m n => (sum m n).1) xd e.key fl)))

/-- R252, R254: MSGSEND posts 48 bytes of row 0 with the handler and the target while fewer than 8 messages are unaccepted; MSGWAIT returns with
the number of messages held, and MSGRECV takes the oldest. A target with flags or a payload tile that is empty or short is class 8 detail 0x07,
and with 8 messages unaccepted or the post queue full MSGSEND waits. The free s.faddr of class 8 (log entry 21), its role and tile (30) and the
wait of a parked strand's send (46) are the model's choices. -/
def Obligations.MessageResults : Prop :=
  ∀ (s : State) (xa xb xd : BitVec 6) (ta td : BitVec 5) (rel acq : Bool) (scope : BitVec 2),
    let a := s.core.tr ta
    let unfit (role tile : Nat) : Prop := exec (.msgsend xa xb ta rel scope) s =
      .next (s.enter ⟨8, 7, Config.faultAddress s.draws, BitVec.ofNat 64 (6 * 2 ^ 16 + role * 2 ^ 13 + tile * 2 ^ 8 + 0xC4)⟩)
    s.core.kind ≠ .command →
      (tilesAllowed s [ta] → 2 ^ 48 ≤ (s.core.xr xb).toNat → unfit 0 0) ∧
      (tilesAllowed s [ta] → (s.core.xr xb).toNat < 2 ^ 48 → a.rows = 0 ∨ a.rowbytes < 48 → unfit 1 ta.toNat) ∧
      (tilesAllowed s [ta] → (s.core.xr xb).toNat < 2 ^ 48 → a.rows ≠ 0 → 48 ≤ a.rowbytes →
        8 ≤ s.core.unaccepted ∨ 32 ≤ s.core.posts.length ∨ s.core.parked ≠ .free →
        exec (.msgsend xa xb ta rel scope) s = .next (s.waitsAt Wait.plain)) ∧
      (tilesAllowed s [ta] → (s.core.xr xb).toNat < 2 ^ 48 → a.rows ≠ 0 → 48 ≤ a.rowbytes → s.core.unaccepted < 8 →
        s.core.posts.length < 32 → s.core.parked = .free → s.releases rel scope.toNat →
        let r := s.released rel scope.toNat
        exec (.msgsend xa xb ta rel scope) s = .next (r.onward { r.core with
          unaccepted := r.core.unaccepted + 1
          posts := r.core.posts ++ [⟨.message (s.core.xr xb), 0xC4#8, (if rel then 8#19 else 0#19) ||| scope.setWidth 19, s.core.num,
            s.core.strand, s.core.asid.toNat, s.core.colour.toNat, s.core.supervisor, scope.toNat, 0, s.core.xr xa,
            ⟨1, 48, 0#5, 0#4, [(a.data.headD []).take 48]⟩, Tile.empty, 0⟩] })) ∧
      (s.core.inbox ≠ [] → ∃ t, exec (.msgwait xd) s = .next t ∧ s.WritesX t xd (BitVec.ofNat 64 s.core.inbox.length) 0#5) ∧
      (s.core.inbox = [] → exec (.msgwait xd) s = .next (s.waitsAt Wait.plain)) ∧
      (s.core.inbox = [] → tilesAllowed s [td] → exec (.msgrecv xd td acq scope) s = .next (s.waitsAt Wait.plain)) ∧
      (∀ m rest, tilesAllowed s [td] → s.core.inbox = m :: rest →
        ∃ t, exec (.msgrecv xd td acq scope) s = .next t ∧
          (({ s with core := { s.core with inbox := rest } } : State).acquired acq scope.toNat).WritesTX t td
            ⟨1, 48, 0#5, 0#4, [m.payload]⟩ xd m.handler 0#5)

/-- R234-R236, R239, R241-R243: CPYGO queues a snapshot of the channel's shadows, counts its bytes into its rendezvous object and returns its id
with its promise; CPYWAIT returns 2 from an error on, 3 for a cancelled transfer, 0 for a completed one, 1 when the deadline has passed; CPYSTAT
reads the oldest id, the queue's length and the error; CPYCANCEL empties the queue and returns how many it held. CPYGO takes the faults of R234
in their order and waits for room and for what its boxes meet; a late CPYWAIT under latetrap retires and traps. The free s.faddr of class 9 (log
entry 21), s.faddr of a box fault, the row of a page fault and the promise's rate (33) and the id before the first CPYGO (63) are the model's. -/
def Obligations.CopyResults : Prop :=
  ∀ (s : State) (xd xa xb : BitVec 6) (k : Fin 8),
    let c := s.core.copies[k]
    let index : BitVec 8 := BitVec.ofNat 8 k
    let t : Transfer := ⟨c.nextSeq, c.src.toNat, c.dst.toNat, c.rows.toNat, c.rowbytes.toNat, c.sstride.toInt, c.dstride.toInt,
      c.flags.toNat % 4, c.flags.getLsbD 2, c.rz.toNat, false, 0, 0, s.core.supervisor,
      s.core.asid.toNat⟩
    let bytes := t.rows * t.rowbytes
    let src := boxOf t.src t.rows t.rowbytes t.sstride
    let dst := boxOf t.dst t.rows t.rowbytes t.dstride
    let p := s.promise k t
    let oldest := ((c.queue.map Transfer.seq).head?).getD c.nextSeq
    let id := s.core.xr xa
    let seq := id.toNat % 2 ^ 29
    let w (x : Nat) : Int := seqWindow 29 c.lastSeq x
    let bad : Prop := ∃ e, c.error = some e ∧ w e ≤ w seq
    let cut : Prop := ∃ first n, c.cancelled = some (first, n) ∧ (seq + 2 ^ 29 - first) % 2 ^ 29 < n
    let done : Prop := ∀ u ∈ c.queue, w seq < w u.seq
    let waits (v : Word) : Prop := ∃ u, exec (.cpywait xd xa xb) s = .next u ∧ s.WritesX u xd v 0#5
    let info : Word := BitVec.ofNat 64 (5 * 2 ^ 16 + 0xC7)
    let range : Exc := ⟨9, 2, Config.faultAddress s.draws, info⟩
    let faults (x : Exc) : Prop := exec (.cpygo xd index) s = .next (s.enter x)
    let counts : Prop := 1 ≤ t.rows ∧ 1 ≤ t.rowbytes ∧ bytes ≤ 2 ^ 40 ∧ (t.rows = 1 ∨ (t.rowbytes : Int) ≤ t.dstride)
    let inside (b : Int × Int) : Prop := 0 ≤ b.1 ∧ b.2 ≤ 2 ^ 52
    let object : Prop := t.rzen = true → t.rz % 16 = 0 ∧ s.inStash t.rz = true ∧ bytes < 2 ^ 28
    let whole : Prop := s.zoneOf t.srcBox ≠ .mixed ∧ s.zoneOf t.dstBox ≠ .mixed
    let stands : Prop := 4 ≤ c.queue.length ∨ s.storeClear t.dstBox = false ∨ s.copiesClear t.srcBox = false
    (s.core.kind ≠ .command → channelAllowed s k →
      (¬counts → faults range) ∧
      (counts → ¬inside src → faults ⟨4, 1, if src.1 < 0 then 0#64 else BitVec.ofInt 64 src.1, info⟩) ∧
      (counts → inside src → ¬inside dst → faults ⟨4, 1, if dst.1 < 0 then 0#64 else BitVec.ofInt 64 dst.1, info⟩) ∧
      (counts → inside src → inside dst → ¬object ∨ ¬whole → faults range) ∧
      (∀ b d m, counts → inside src → inside dst → object → whole → s.copyFault t = some (b, d, m) →
        faults ⟨3, d, BitVec.ofNat 64 b, faultInfo (m % 64) 5 0 0 0xC7⟩) ∧
      (counts → inside src → inside dst → object → whole → s.copyFault t = none → stands →
        exec (.cpygo xd index) s = .next (s.waitsAt Wait.plain)) ∧
      (counts → inside src → inside dst → object → whole → s.copyFault t = none → ¬stands → t.rzen = true →
        2 ^ 28 ≤ (s.rendezvous t.rz).bytes + bytes → faults ⟨9, 3, Config.faultAddress s.draws, info⟩)) ∧
    (s.core.kind ≠ .command →
      (channelAllowed s k → 1 ≤ t.rows → 1 ≤ t.rowbytes → bytes ≤ 2 ^ 40 → (t.rows = 1 ∨ (t.rowbytes : Int) ≤ t.dstride) →
        0 ≤ src.1 → src.2 ≤ 2 ^ 52 → 0 ≤ dst.1 → dst.2 ≤ 2 ^ 52 → s.zoneOf t.srcBox ≠ .mixed → s.zoneOf t.dstBox ≠ .mixed →
        s.copyFault t = none → c.queue.length < 4 → s.storeClear t.dstBox = true → s.copiesClear t.srcBox = true →
        (t.rzen = true → t.rz % 16 = 0 ∧ s.inStash t.rz = true ∧ bytes < 2 ^ 28 ∧ (s.rendezvous t.rz).bytes + bytes < 2 ^ 28) →
        let u := if t.rzen then s.countBytes t bytes else s
        exec (.cpygo xd index) s = .next (u.onward (({ u.core with copies := u.core.copies.set k { c with
          queue := c.queue ++ [{ t with promised := u.core.cycle + BitVec.ofNat 64 p }], nextSeq := (c.nextSeq + 1) % 2 ^ 29 } } : Core).setX xd
            (BitVec.ofNat 64 (p * 2 ^ 32 + k * 2 ^ 29 + c.nextSeq))))) ∧
      (channelAllowed s k →
        (∃ u, exec (.cpystat xd index) s = .next u ∧
          s.WritesX u xd (BitVec.ofNat 64 (k * 2 ^ 29 + oldest + c.queue.length * 2 ^ 32 + if c.error.isSome then 2 ^ 35 else 0)) 0#5) ∧
        let u := s.uncount c.queue
        exec (.cpycancel xd index) s = .next (u.onward (({ u.core with copies := u.core.copies.set k { c with
          queue := [], error := none, cancelled := (c.queue.head?.map fun x => (x.seq, c.queue.length)).or c.cancelled } } : Core).setX xd
            (BitVec.ofNat 64 c.queue.length)))) ∧
      (id.toNat / 2 ^ 29 % 8 = k →
        (w seq ≤ 0 → bad → waits 2#64) ∧
        (w seq ≤ 0 → ¬bad → cut → waits 3#64) ∧
        (w seq ≤ 0 → ¬bad → ¬cut → done → waits 0#64) ∧
        (w seq ≤ 0 → ¬bad → ¬cut → ¬done → (s.core.xr xb).toNat ≤ s.core.cycle.toNat → s.core.latetrap = false → waits 1#64) ∧
        (w seq ≤ 0 → ¬bad → ¬cut → ¬done → (s.core.xr xb).toNat ≤ s.core.cycle.toNat → s.core.latetrap = true →
          ∃ u, s.WritesX u xd 1#64 0#5 ∧ exec (.cpywait xd xa xb) s = .next (u.enter ⟨9, 0, id, BitVec.ofNat 64 (5 * 2 ^ 16 + 0xC8)⟩)) ∧
        (w seq ≤ 0 → ¬bad → ¬cut → ¬done → s.core.cycle.toNat < (s.core.xr xb).toNat →
          exec (.cpywait xd xa xb) s = .next (s.waitsAt Wait.plain)) ∧
        (0 < w seq → exec (.cpywait xd xa xb) s = .next (s.enter ⟨9, 4, id, BitVec.ofNat 64 (5 * 2 ^ 16 + 0xC8)⟩))))

/-- R255-R257: LKRED and LKSKADD enter the link queue of their tag with an id, LKRED after the strand's dirty bytes of its buffer have reached
L2; LKWAIT waits until every collective up to the named one has completed and returns 2 for an error, 0 without, or 1 when it is late, and traps
then under latetrap; LKSTAT returns 0, 1 or 2. A buffer or record out of alignment is class 4, a count out of range class 9 detail 0x05, and a
collective waits while its ranges meet unperformed work. One sequence of ids over all tags, the wait on every earlier collective of the strand
and the ordinal counted at retire are the model's choices (log entry 33), and so are the ids before the first (63) and the free s.faddr of class
4 and class 9 detail 0x05 (21). -/
def Obligations.CollectiveResults : Prop :=
  ∀ (s : State) (xd xa xb : BitVec 6) (index : BitVec 8),
    let a := (s.core.xr xa).toNat
    let b := (s.core.xr xb).toNat
    let g := index.toNat
    let queued (s : State) (kind : CollKind) (ranges : List (Nat × Nat)) : State :=
      let k : Collective := ⟨s.core.num, s.core.strand, s.core.asid.toNat, s.core.colour.toNat, g, s.core.linkSeq,
        s.card.tagCounts.toList.getD g 0, kind, s.core.supervisor, a, ranges, .pending⟩
      { s with card := { s.card with colls := s.card.colls ++ [k], tagCounts := s.card.tagCounts.setIfInBounds g (k.ordinal + 1) } }
    let issues (i : Instr) (u : State) : Prop :=
      exec i s = .next (u.onward (({ u.core with linkSeq := (u.core.linkSeq + 1) % 2 ^ 28 } : Core).setX xd (BitVec.ofNat 64 (g * 2 ^ 28 + u.core.linkSeq))))
    let mine := s.card.colls.filter fun k => sameStrand k.strand s.core.strand
    let id := s.core.xr xa
    let seq := id.toNat % 2 ^ 28
    let w (x : Nat) : Int := seqWindow 28 ((s.core.linkSeq + 2 ^ 28 - 1) % 2 ^ 28) x
    let upTo := mine.filter fun k => decide (w k.seq ≤ w seq)
    let faults (i : Instr) (x : Exc) : Prop := exec i s = .next (s.enter x)
    let info (op : Nat) : Word := BitVec.ofNat 64 (6 * 2 ^ 16 + op)
    let over_ : Prop := ∀ k ∈ upTo, k.status = .done ∨ k.status = .error
    let writes (i : Instr) (v : Word) : Prop := ∃ t, exec i s = .next t ∧ s.WritesX t xd v 0#5
    s.core.kind ≠ .command →
      (a % 128 = 0 → 1 ≤ b → b ≤ 2 ^ 26 → s.linkClear [(a, a + 4 * b)] = true → s.heldBy (s.writeBackRange (a, a + 4 * b)) = [] →
        issues (.lkred xd xa xb index) (queued (s.writeBackRange (a, a + 4 * b)) (.red b) [(a, a + 4 * b)])) ∧
      (a % 64 = 0 → s.linkClear ((a, a + 64) :: (s.recordArray a).toList) = true →
        issues (.lkskadd xd xa index) (queued s .sketch (s.sketchRanges a))) ∧
      (a % 128 ≠ 0 → faults (.lkred xd xa xb index) ⟨4, 0, Config.faultAddress s.draws, info 0xD0⟩) ∧
      (a % 128 = 0 → b = 0 ∨ 2 ^ 26 < b → faults (.lkred xd xa xb index) ⟨9, 5, Config.faultAddress s.draws, info 0xD0⟩) ∧
      (a % 64 ≠ 0 → faults (.lkskadd xd xa index) ⟨4, 0, Config.faultAddress s.draws, info 0xD1⟩) ∧
      (a % 128 = 0 → 1 ≤ b → b ≤ 2 ^ 26 → s.linkClear [(a, a + 4 * b)] = false → exec (.lkred xd xa xb index) s = .next (s.waitsAt Wait.plain)) ∧
      (a % 64 = 0 → s.linkClear ((a, a + 64) :: (s.recordArray a).toList) = false →
        exec (.lkskadd xd xa index) s = .next (s.waitsAt Wait.plain)) ∧
      (w seq ≤ 0 →
        (over_ → (∃ k ∈ upTo, k.status = .error) → writes (.lkwait xd xa xb) 2#64) ∧
        (over_ → (∀ k ∈ upTo, k.status = .done) → writes (.lkwait xd xa xb) 0#64) ∧
        (¬over_ → b ≤ s.core.cycle.toNat → s.core.latetrap = false → writes (.lkwait xd xa xb) 1#64) ∧
        (¬over_ → b ≤ s.core.cycle.toNat → s.core.latetrap = true →
          ∃ t, s.WritesX t xd 1#64 0#5 ∧ exec (.lkwait xd xa xb) s = .next (t.enter ⟨9, 1, id, info 0xD2⟩)) ∧
        (¬over_ → s.core.cycle.toNat < b → exec (.lkwait xd xa xb) s = .next (s.waitsAt Wait.plain)) ∧
        (∀ k, mine.find? (fun k => k.seq == seq) = some k →
          writes (.lkstat xd xa) (if k.status = .done then 1#64 else if k.status = .error then 2#64 else 0#64))) ∧
      (0 < w seq → exec (.lkwait xd xa xb) s = .next (s.enter ⟨9, 4, id, BitVec.ofNat 64 (6 * 2 ^ 16 + 0xD2)⟩) ∧
        exec (.lkstat xd xa) s = .next (s.enter ⟨9, 4, id, BitVec.ofNat 64 (6 * 2 ^ 16 + 0xD3)⟩))

/-- R263-R266, R268-R273: a member's SYARR makes its arrival and returns the target; SYWAIT, and SYBAR, SYBC and SYRED once they have arrived,
retire with 0 when their round has been reached and with 1 when s.sytmo has run out, and wait until then, from the clock after the arrival
(R270), or retire and trap after it with class 10 detail 0x00 under s.ps.sytrap; the arrival is held by PC and channel (the model's choice, log
entry 34; with xd = xc the status stands, log entry 66); a result recorded by PREACK is returned after a resumption (R275); SYGEN returns G; a
strand that is no member takes class 10 detail 0x01. R264, R272, R273: ROUND_COMPLETE completes a round in which every member has arrived: G goes
up by one, the first arrival of each member is taken, and the result is held beside the last one: the offer of the lowest-numbered offering core,
and the tree N of R272 over the contributions, in which a node applies the operation of its lower side (R470) and a side without a contribution
passes the other through. That the round completes at once, and which core a contribution stands at, are the model's choices (log entries 34 and
55). -/
def Obligations.SynchronisationResults : Prop :=
  (∀ (s : State) (xd xa xc : BitVec 6) (index : BitVec 8) (sel : BitVec 4) (u rel acq : Bool) (n : Nat) (g : Segment),
    let ch := index.toNat
    let me := g.member s.core.strandIndex
    let arrived (c : Contribution) : State :=
      let r := s.released rel g.scope
      { r with card := { r.card with segments := r.card.segments.set n { g with
        members := g.members.map fun m => if m.index = s.core.strandIndex then { m with count := m.count + 1#16, seat := s.core.num, arrivals := m.arrivals ++ [c] } else m } } }
    let target : BitVec 16 := (s.core.xr xa).setWidth 16
    let notYet (target : BitVec 16) : Prop := (g.gen - target).toInt < 0
    let free : State := { s with core := { s.core with held := s.core.held.filter fun h => !(h.pc == some s.core.pc && h.chan == ch) } }
    let writes (s : State) (i : Instr) (u : State) (v : Word) : Prop := ∃ t, exec i s = .next t ∧ u.WritesX t xd v 0#5
    let writes2 (i : Instr) (u : State) (v w : Word) : Prop := exec i s = .next (u.onward ((u.core.setX xd v).setX xc w))
    let waits (i : Instr) : Prop := exec i s = .next s.waitsOn
    let arrives : Prop := s.releases rel g.scope ∧ me.arrivals.length < 2 ∧ s.core.parked = .free
    let times (i : Instr) (op : Nat) (target : BitVec 16) (u : State) : Prop :=
      exec i s = .next (u.enter ⟨10, 0, target.setWidth 64, BitVec.ofNat 64 (ch * 256 + op)⟩)
    let rounds (i : Instr) (op : Nat) (reduces : Bool) (c : Contribution) (ends : SyResult → Prop) (late : State) : Prop :=
      (s.heldArrival ch = none → arrives →
        let t := arrived c
        exec i s = .next (({ t with core := { t.core with
          held := t.core.held ++ [⟨some t.core.pc, ch, me.count + 1#16, reduces, none⟩] } } : State).waitsSince (t.core.cycle + 1#64))) ∧
      (∀ h v, s.heldArrival ch = some h → h.result = some v → ends ⟨h.target, v, v⟩) ∧
      (∀ h, s.heldArrival ch = some h → h.result = none →
        (¬notYet h.target → ∀ r, (g.results.find? fun r => r.round == h.target) = some r → ends r) ∧
        (notYet h.target → waitedOut s.core → s.core.sytrap = false → exec i s = .next late) ∧
        (notYet h.target → waitedOut s.core → s.core.sytrap = true → times i op h.target late) ∧
        (notYet h.target → ¬waitedOut s.core → exec i s = .next s.waitsOn))
    (s.segmentAt ch = some (n, g) →
      (arrives →
        writes s (.syarr xd index rel) (arrived .none) ((me.count + 1#16).setWidth 64)) ∧
      ((¬notYet target → writes s (.sywait xd xa index acq) (s.acquired acq g.scope) 0#64) ∧
        (notYet target → waitedOut s.core → s.core.sytrap = false → writes s (.sywait xd xa index acq) s 1#64) ∧
        (notYet target → waitedOut s.core → s.core.sytrap = true → times (.sywait xd xa index acq) 0xE1 target (s.onward (s.core.setX xd 1#64))) ∧
        (notYet target → ¬waitedOut s.core → waits (.sywait xd xa index acq))) ∧
      rounds (.sybar xd index rel acq) 0xE2 false .none (fun _ => writes s (.sybar xd index rel acq) (free.acquired acq g.scope) 0#64)
        (free.onward (free.core.setX xd 1#64)) ∧
      rounds (.sybc xd xa xc index sel rel acq) 0xE3 false (if sel = 1#4 then .offer (s.core.xr xa) else .none)
        (fun r => writes2 (.sybc xd xa xc index sel rel acq) (free.acquired acq g.scope) r.bcast 0#64)
        (free.onward ((free.core.setX xd 0#64).setX xc 1#64)) ∧
      rounds (.syred xd xa xc index sel u rel acq) 0xE4 true (.value sel.toNat u (s.core.xr xa))
        (fun r => writes2 (.syred xd xa xc index sel u rel acq) (free.acquired acq g.scope) r.red 0#64)
        (free.onward ((free.core.setX xd 0#64).setX xc 1#64)) ∧
      writes s (.sygen xd index) s (g.gen.setWidth 64)) ∧
    (s.segmentAt ch = none → ∀ p ∈ [(Instr.syarr xd index rel, 0xE0), (.sywait xd xa index acq, 0xE1), (.sybar xd index rel acq, 0xE2),
        (.sybc xd xa xc index sel rel acq, 0xE3), (.syred xd xa xc index sel u rel acq, 0xE4), (.sygen xd index, 0xE5)],
      exec p.1 s = .next (s.enter ⟨10, 1, 0#64, BitVec.ofNat 64 (ch * 256 + p.2)⟩))) ∧
  (∀ (s : State) (n : Nat) (g : Segment), s.card.segments[n]? = some g → g.members ≠ [] →
    (∀ m ∈ g.members, ∃ c, m.core = some c ∧ c < 256) → (g.members.map SyMember.core).Nodup →
    let first (m : SyMember) : Contribution := m.arrivals.headD .none
    let place (m : SyMember) : Nat := m.core.getD 0
    let offers (m : SyMember) (v : Word) : Prop := m ∈ g.members ∧ first m = .offer v
    let gives (m : SyMember) (op : Nat) (u : Bool) (v : Word) : Prop := m ∈ g.members ∧ first m = .value op u v
    ((∀ m ∈ g.members, m.arrivals ≠ []) →
      ∃ r : SyResult, r.round = g.gen + 1#16 ∧
        ((∀ m v, ¬offers m v) → r.bcast = 0#64) ∧
        (∀ m v, offers m v → (∀ m' v', offers m' v' → place m ≤ place m') → r.bcast = v) ∧
        ((∀ m op u v, ¬gives m op u v) → r.red = 0#64) ∧
        (∀ N : Nat → Nat → Option (Nat × Bool × Word),
          (∀ m op u v, gives m op u v → N 0 (place m) = some (op, u, v)) →
          (∀ j, (∀ m op u v, gives m op u v → place m ≠ j) → N 0 j = none) →
          (∀ h j, N (h + 1) j = match N h (2 * j), N h (2 * j + 1) with
            | none, y => y
            | x, none => x
            | some (op, u, v), some (_, _, w) => some (op, u, syOp op u v w)) →
          r.red = ((N 8 0).map fun x => x.2.2).getD 0#64) ∧
        exec (.roundComplete n) s = .next { s with card := { s.card with segments := s.card.segments.set n { g with
          gen := g.gen + 1#16
          members := g.members.map fun m => { m with arrivals := m.arrivals.tail }
          results := r :: g.results.take 1 } } }) ∧
    ((∃ m ∈ g.members, m.arrivals = []) → exec (.roundComplete n) s = .next s))

/-- R276, R277: RZINIT and RZARR retire with their update on its way to the object's stash, where it performs indivisibly, after the older writes
of the drain: that they retire before it performs, and which event performs it, are the model's choices (log entry 34). RZINIT sets expected and
pending, phase 0 and ovf 0; RZARR takes one from pending, or sets ovf at 0, and completes the phase at 0 pending arrivals and bytes. RZWAIT
returns the phase once it differs from xb[3:0], or is late, and traps then under s.ps.sytrap. The checks of R277 trap in their order: class 4
detail 0x00, class 10 details 0x02 and 0x03, class 3. The wait of a parked strand (log entry 46) and the phase of a timed-out RZWAIT that has not
read (66) are the model's too. -/
def Obligations.RendezvousResults : Prop :=
  ∀ (s : State) (xa xb xd : BitVec 6) (rel acq : Bool) (scope : BitVec 2),
    let a := s.core.xr xa
    let n := (s.core.xr xb).toNat
    let box := (a.toNat, a.toNat + 16)
    let usable (acc : Access) : Prop := a.toNat % 16 = 0 ∧ s.inStash a.toNat = true ∧ s.accessFault acc a.toNat (a.toNat + 16) = none
    let sends (i : Instr) (r : State) (init : Option Nat) : Prop :=
      r.storeClear box = true → r.core.releaseStore = false → r.core.parked = .free →
        let u := r.touchRange a.toNat 16
        exec i s = .next ({ u with card := { u.card with rendezvous := u.card.rendezvous ++
          [⟨r.core.num, r.core.strand, (r.objectAt a.toNat).1, (r.objectAt a.toNat).2, a.toNat, init,
            (r.core.drain.flatMap DrainEntry.writes).length⟩] } } : State).retire
    let clear := s.loadClear box
    let u := if clear then s.readThrough.touchRange a.toNat 16 else s
    let phase := (u.rendezvous a.toNat).phase
    (usable .store → 1 ≤ n → n ≤ 65535 → sends (.rzinit xa xb) s (some n)) ∧
    (usable .store → s.releases rel scope.toNat → sends (.rzarr xa rel scope) (s.released rel scope.toNat) none) ∧
    (∀ v c, s.drainSent = none → s.card.rendezvous.head? = some v → v.core = s.core.num → v.older = 0 → s.coreAt v.owner = some c →
      let old := Rendezvous.ofNat (ofBytes (readBytes c.stash.bytes v.off 16))
      let new : Rendezvous := match v.init with
        | some k => { old with expected := k, pending := k, phase := 0, ovf := false }
        | none =>
          if old.pending = 0 then { old with ovf := true }
          else if old.pending = 1 ∧ old.bytes = 0 then { old with pending := old.expected, phase := (old.phase + 1) % 16 }
          else { old with pending := old.pending - 1 }
      exec .apertureAccessPerform s = .next ((List.range 16).foldl (fun t i => t.writeStashOf v.owner (v.off + i) (BitVec.ofNat 8 (new.toNat / 256 ^ i)))
        ({ s with card := { s.card with rendezvous := s.card.rendezvous.tail } } : State))) ∧
    (∀ i rel', (i = .rzinit xa xb ∧ 1 ≤ n ∧ n ≤ 65535 ∨ i = .rzarr xa rel' scope ∧ rel' = false) → usable .store →
      s.storeClear box = false ∨ s.core.releaseStore = true ∨ s.core.parked ≠ .free → exec i s = .next (s.waitsAt Wait.plain)) ∧
    (usable .load → clear = true → phase ≠ n % 16 → ∃ t, exec (.rzwait xd xa xb acq scope) s = .next t ∧
      (u.acquired acq scope.toNat).WritesX t xd (BitVec.ofNat 64 phase) 0#5) ∧
    (usable .load → clear = false ∨ phase = n % 16 → waitedOut s.core → s.core.sytrap = false →
      ∃ t, exec (.rzwait xd xa xb acq scope) s = .next t ∧ u.WritesX t xd (BitVec.ofNat 64 (phase + 256)) 0#5) ∧
    (usable .load → clear = false ∨ phase = n % 16 → ¬waitedOut s.core → exec (.rzwait xd xa xb acq scope) s = .next u.waitsOn) ∧
    (usable .load → clear = false ∨ phase = n % 16 → waitedOut s.core → s.core.sytrap = true → exec (.rzwait xd xa xb acq scope) s =
      .next ((u.onward (u.core.setX xd (BitVec.ofNat 64 (phase + 256)))).enter ⟨10, 0, BitVec.ofNat 64 (n % 16), 0xE8#64⟩)) ∧
    (let named (op : Nat) : List (Prop × Exc) := [(a.toNat % 16 ≠ 0, ⟨4, 0, a, BitVec.ofNat 64 op⟩),
       (s.inStash a.toNat = false, ⟨10, 2, a, BitVec.ofNat 64 op⟩)]
     let pages (i : Instr) (acc : Access) (op : Nat) : Prop := ∀ b d, s.accessFault acc a.toNat (a.toNat + 16) = some (b, d) →
       exec i s = .next (s.enter ⟨3, d, BitVec.ofNat 64 b, BitVec.ofNat 64 op⟩)
     s.trapsFirst (.rzinit xa xb) (named 0xE6 ++ [(n < 1 ∨ 65535 < n, ⟨10, 3, a, 0xE6#64⟩)]) (pages (.rzinit xa xb) .store 0xE6) ∧
     s.trapsFirst (.rzarr xa rel scope) (named 0xE7) (pages (.rzarr xa rel scope) .store 0xE7) ∧
     s.trapsFirst (.rzwait xd xa xb acq scope) (named 0xE8) (pages (.rzwait xd xa xb acq scope) .load 0xE8))

/-- R289, R295-R298: ACQ and REL perform the acquire and the release of their scope, FENCE ends with the drain and the posts performed, QFENCE
with the named queues empty, IFENCE with every older store-type instruction performed, when it discards what was fetched; no register changes.
While something that it waits for is left, REL, FENCE, QFENCE and IFENCE each wait, REL also for a line that the host holds. -/
def Obligations.OrderingResults : Prop :=
  ∀ (s : State) (scope : BitVec 2) (imm : BitVec 32),
    exec (.acq scope) s = .next (s.acquireAt scope.toNat).retire ∧
    (s.releases true scope.toNat → exec (.rel scope) s = .next (s.releaseAt scope.toNat).retire) ∧
    (s.drained = true → s.ownUpdates = [] → s.ownPosts = [] → s.core.unaccepted = 0 → exec .fence s = .next (s.onward s.core)) ∧
    ((∀ k : Fin 8, imm.getLsbD k = true → s.core.copies[k].queue = []) →
      (imm.getLsbD 8 = true → s.ownPosts = [] ∧ s.core.unaccepted = 0) → (imm.getLsbD 9 = true → s.ownColls = []) →
      exec (.qfence imm) s = .next (s.onward s.core)) ∧
    (s.releaseReady scope.toNat = false → exec (.rel scope) s = .next (s.waitsAt (Wait.release scope.toNat))) ∧
    (s.drained = false ∨ s.ownUpdates ≠ [] ∨ (∃ p ∈ s.ownPosts, p.isRed = true ∨ 2 ≤ scope.toNat ∧ p.isSketch = true) →
      s.releaseReady scope.toNat = false) ∧
    (s.releaseReady scope.toNat = true → s.releaseHeld scope.toNat ≠ [] → exec (.rel scope) s = .next { s.waitsAt (Wait.release scope.toNat) with
      card := { s.card with snoops := s.card.snoops ++ (s.releaseHeld scope.toNat).filter fun l => !s.card.snoops.contains l } }) ∧
    (s.drained = false ∨ s.ownUpdates ≠ [] ∨ s.ownPosts ≠ [] ∨ s.core.unaccepted ≠ 0 → exec .fence s = .next (s.waitsAt Wait.posts)) ∧
    (s.drained = false ∨ s.ownUpdates ≠ [] ∨ s.ownPosts ≠ [] ∨ s.core.unaccepted ≠ 0 ∨ s.ownColls ≠ [] ∨
      (∃ k : Fin 8, s.core.copies[k].queue ≠ []) → exec .ifence s = .next (s.waitsAt Wait.plain)) ∧
    ((∃ k : Fin 8, imm.getLsbD k = true ∧ s.core.copies[k].queue ≠ []) ∨ (imm.getLsbD 8 = true ∧ (s.ownPosts ≠ [] ∨ s.core.unaccepted ≠ 0)) ∨
      (imm.getLsbD 9 = true ∧ s.ownColls ≠ []) →
      exec (.qfence imm) s = .next (s.waitsAt (if imm.getLsbD 8 then Wait.posts else Wait.plain))) ∧
    (s.drained = true → s.ownUpdates = [] → s.ownPosts = [] → s.core.unaccepted = 0 → s.ownColls = [] → (∀ k : Fin 8, s.core.copies[k].queue = []) →
      exec .ifence s = .next (s.onward { s.core with icache := [], lineBuffer := [], codeView := [] }))

/-- R118, R147, R293, R305, R342, R347, R350, R351, R353, R354, R443: LINE_FETCH delivers the line of the PC; ENGINE_ISSUE and VALUE_RETURN let
an instruction that reads when it issues, in an engine or in the front end, read while older ones have not retired, or an acquire perform early:
the result stays with the core, and nothing else of the core changes but what the read or the acquire leaves in the stash; behind a waiting
CPYWAIT a CPYSTAT that a serialising instruction follows, and an MFS of a watermark, read. INSTRUCTION_COMPLETE and RETIRE are moments in time;
that an instruction's own step retires it is the model's choice (log entry 40). STORE_DRAIN_WRITE performs the oldest write of the drain in the
strand's own stash or cache, an STL's at the point of its scope, or sends it out to another stash, to the host or to the peer, while the next one
waits; it waits for a port to the peer while every working one retrains, and for the rendezvous updates that are due before it; with the bridge
down it is dropped with class 15 detail 0x01; APERTURE_ACCESS_PERFORM performs an aperture store at its owner. -/
def Obligations.PipelineEventResults : Prop :=
  ∀ (s : State) (w : DrainWrite) (ws : List DrainWrite) (tile : Bool) (lo hi : Nat) (scope : Option Nat) (rest : List DrainEntry),
    (s.core.run = .running → s.fetchFault s.core.pc 0#64 = none →
      exec .lineFetch s = .next (s.deliver (lineOf s.core.pc).toNat).1) ∧
    exec .instructionComplete s = .next s ∧ exec .retire s = .next s ∧
    (let issues (e : Instr) (engine : Bool) : Prop := (s.atHead = false → exec e s = .next s) ∧
       ∃ t, exec e s = .next t ∧ t.core = { s.core with stash := t.core.stash, passed := t.core.passed, early := t.core.early } ∧
         (t = s ∨ (∃ g i f u n, passingOf i = .reads engine ∧ meaning i = some f ∧ readOf i f (s.withRegisters g) = .next u ∧ 0 < n ∧
             (t = s.readEarly u (earlyOf i n u) ∨ t = (s.readEarly u (earlyOf i n u)).settle (earlyOf i n u))) ∨
           (∃ i n sc, acquireOf i = some sc ∧ 0 < n ∧ t = s.acquireEarly i n sc) ∨ ∃ r ∈ s.core.early, r.acq ≠ none ∧ t = s.settle r)
     issues .engineIssue true ∧ issues .valueReturn false) ∧
    (∀ xc xa xb xd (k : Fin 8) g g' i, s.atHead = true → s.core.early = [] → s.core.kind ≠ .command → channelAllowed s k →
      let h : State := { s with core := { s.core with waiting := none, waitFrom := none, early := [] } }
      let c := s.core.copies[k]
      let oldest := ((c.queue.map Transfer.seq).head?).getD c.nextSeq
      let reads (v : Word) : State := { s with core := { s.core with early := [⟨1, true, none, [(xd, v)], []⟩] } }
      h.fetch = .ok (g, .cpywait xc xa xb) → endingOf (execCpywait xc xa xb) g = .waits → g.retire.fetch = .ok (g', i) → xd ≠ 0#6 →
        (i = .mfs xd (BitVec.ofNat 12 (0x208 + 16 * k)) → exec .valueReturn s = .next (reads c.wm)) ∧
        (i = .cpystat xd (BitVec.ofNat 8 k) → (∀ g'' j, g'.retire.fetch = .ok (g'', j) → passingOf j = .stops) →
          exec .engineIssue s = .next (reads (BitVec.ofNat 64 (k * 2 ^ 29 + oldest + c.queue.length * 2 ^ 32 +
            if c.error.isSome then 2 ^ 35 else 0))))) ∧
    (s.core.drain = ⟨tile, lo, hi, scope, w :: ws⟩ :: rest →
      let va := tagVa w.tag
      let popped (t : State) : State := { t.passUpdates with core := { t.core with
        drain := if ws = [] then rest else ⟨tile, lo, hi, scope, ws⟩ :: rest, sent := false } }
      (s.core.sent = true ∨ s.dueUpdate ≠ none → exec .storeDrainWrite s = .next s) ∧
      (s.core.sent = false → s.dueUpdate = none →
        ((s.core.apertureAt va).isSome = true ∨ (∃ a, w.target = .host a) → w.target ≠ .peer →
          exec .storeDrainWrite s = .next { s with core := { s.core with sent := true } }) ∧
        (w.target = .peer → s.card.bridge.up = true → s.card.bridge.portOf s.core.num = none → exec .storeDrainWrite s = .next s) ∧
        (w.target = .peer → s.card.bridge.up = true → s.card.bridge.portOf s.core.num ≠ none →
          exec .storeDrainWrite s = .next { s.openDomain with core := { s.core with sent := true } }) ∧
        (s.card.bridge.domains = [] → s.core.apertureAt va = none →
          (∀ pa, w.target = .local pa → scope = none → s.heldBy (s.storeBytes w.tag w.target w.bytes) = [] →
            exec .storeDrainWrite s = .next (popped (s.storeBytes w.tag w.target w.bytes))) ∧
          (∀ pa sc, w.target = .local pa → scope = some sc →
            let p := s.scopePoint sc va
            let t := (s.pushRange p va w.bytes.length).putRange p va true w.bytes
            s.heldBy t = [] → exec .storeDrainWrite s = .next (popped t)) ∧
          (w.target = .peer → s.card.bridge.up = false →
            let t := s.dropPeerStore (w.tag - w.tag % 128)
            exec .storeDrainWrite s = .next (popped t) ∧ t.card.service.storesDropped = s.card.service.storesDropped + 1 ∧
              t.core = { s.core with machineChecks := s.core.machineChecks ++
                [⟨15, 1, BitVec.ofNat 64 (tagVa (w.tag - w.tag % 128)), BitVec.ofNat 64 ((clusterOf s.core.num).getD 0)⟩] }))) ∧
      (s.core.sent = true → (s.core.apertureAt va).isSome = true → s.card.bridge.domains = [] →
        exec .apertureAccessPerform s = .next (popped (s.performAperture w)) ∧
        (∀ o f c, s.coreAt o = some c → Memory.wf c.stash.bytes = true →
          (∀ i < w.bytes.length, s.core.apertureAt (va + i) = some (o, f + i)) →
          ∃ d, (s.performAperture w).coreAt o = some d ∧ ∀ a, readByte d.stash.bytes a =
            if f ≤ a ∧ a < f + w.bytes.length then w.bytes.getD (a - f) 0#8 else readByte c.stash.bytes a) ∧
        ∀ o b, w.bytes = [b] → s.core.apertureAt va = some (s.core.num, o) → s.core.stash.windowTag o = none →
          s.performAperture w = { s with core := { s.core with stash := { s.core.stash with
            bytes := writeByte s.core.stash.bytes o b, changed := s.core.stash.changed ||| 1#2048 <<< (o / 128) } } }))

/-- R311, R316, R327, R329, R330, R335, R356, R421: the instruction at the head takes its fetch fault, its own precise fault, or the class-11
fault of a source that holds an uncorrectable error; one whose cause follows its retire takes it then; of the pending asynchronous causes class
15 comes before 13 before 12, the last two only in user mode, and class 13 at a HALT that waits; a class-12 report becomes pending at the core of
its strand, behind older packets of its way (R427), but not at one that runs another incarnation, and the pre-emption signal parks the strand
with its image's address. That a source's class-11 fault comes after the instruction's own, and what the events name, are the model's choices
(log entries 52, 6 and 35). R239, R257, R270, R321: an instruction that waits for a time ends as it does when it is executed at that time; those
that have issued behind it then have one fewer before them. The events that end such waits are the model's reading (log entry 22). -/
def Obligations.WaitEntryEventResults : Prop :=
  (∀ (s t : State) (x : Exc),
    let c := s.core
    let asynchronous (d : Core) : Prop := exec .asynchronousEntry s = .next (({ s with core := d } : State).enter x)
    let precise (y : Exc) : Instr := .preciseFaultEntry y.cls y.detail y.faddr y.finfo
    c.run = .running →
      (s.atHead = true →
        (∀ y, s.fetch = .error y → exec (precise y) s = .next (s.enter y) ∧ (x ≠ y → exec (precise x) s = .next s)) ∧
        (∀ i f, s.fetch = .ok (t, i) → meaning i = some f →
          let line : Exc := ⟨11, 1, c.pc, 0#64⟩
          (c.waiting = none → exec (precise line) s = .next (t.enter line)) ∧
          (endingOf f t = .retires → x ∈ (t.reading i).faults t (opcodeOf i) → exec (precise x) s = .next (t.enter x)) ∧
          (∀ y, endingOf f t = .entry y → y.afterRetire = false → y ≠ line → exec (precise y) s = f t) ∧
          (∀ y, endingOf f t = .entry y → y.afterRetire = true → exec (.afterRetireEntry y.cls y.detail y.faddr y.finfo) s = f t)) ∧
        (∀ xd xa xb, s.fetch = .ok (t, .add xd xa xb) → xa ≠ 0#6 →
          let y : Exc := ⟨11, 2, 0#64, xa.setWidth 64 <<< 8 ||| 0x10#64⟩
          exec (precise y) s = .next (t.enter y)) ∧
        (∀ imm, s.fetch = .ok (t, .trap imm) →
          exec (.afterRetireEntry 14 0 imm t.core.pc) s = .next (t.retire.enter ⟨14, 0, imm, t.core.pc⟩))) ∧
      (∀ w, c.waiting = some w → w.sent = true → exec .asynchronousEntry s = .next s) ∧
      ((∀ w, c.waiting = some w → w.sent = false) →
        (∀ rest, c.machineChecks = x :: rest → x.cls = 15 → asynchronous { c with machineChecks := rest }) ∧
        (c.machineChecks = [] → c.preempt = some x → x.cls = 13 → c.supervisor = false ∨ (∃ w, c.waiting = some w ∧ w.halt = true) →
          asynchronous { c with preempt := none }) ∧
        (∀ rest, c.machineChecks = [] → c.preempt = none → c.reports = x :: rest → x.cls = 12 → c.supervisor = false →
          asynchronous { c with reports := rest })) ∧
      (c.machineChecks = [] → c.supervisor = true → c.waiting = none → exec .asynchronousEntry s = .next s) ∧
      (c.machineChecks = [] → c.preempt = none → c.reports = [] → exec .asynchronousEntry s = .next s) ∧
      (let overtaken (r : Report) : Bool := s.overtaken (32 + r.exc.finfo.toNat / 2 ^ 32, stopOf r.core) r.number
       (∀ n r, s.card.reports[n]? = some r → overtaken r = true → exec (.deferredReportArrival n) s = .next s) ∧
       (∀ n r, s.card.reports[n]? = some r → overtaken r = false → sameStrand c.strand r.strand = true → strandIncarnation c.strand ≠ strandIncarnation r.strand →
        exec (.deferredReportArrival n) s = .next { s with card := { s.card with reports := s.card.reports.eraseIdx n } }) ∧
       (∀ n r, s.card.reports[n]? = some r → overtaken r = false → sameStrand c.strand r.strand = true →
        strandIncarnation c.strand = strandIncarnation r.strand → c.reports.length < 8 →
        exec (.deferredReportArrival n) s = .next { s with
          card := { s.card with reports := s.card.reports.eraseIdx n }
          core := { c with reports := c.reports ++ [r.exc] } })) ∧
      (∀ p l i, s.card.partitions.find? (fun p => p.colour == c.colour.toNat && p.preempting.isSome) = some p → c.parked ≠ .preempting →
        s.card.launches.find? (fun l => l.id == c.launchOf) = some l → s.card.strandInfo c.launchOf c.strandIndex = some i →
        exec .preEmptionSignal s = .next { s with core := { c with
          parked := .preempting
          preempt := some ⟨13, 0, BitVec.ofNat 64 ((l.record.getD 6 0#64).toNat + c.strandIndex * 2 ^ 20),
            if i.images = 0 then 0#64 else 1#64⟩ } })) ∧
  (∀ (s t : State) (i : Instr), s.core.run = .running → s.core.waiting ≠ none → s.core.fw = [] → s.fetch = .ok (t, i) →
    let wakes (e : Instr) : Prop := exec e s = aged (exec i t)
    let late (x : BitVec 6) : Prop := (s.core.xr x).toNat ≤ s.core.cycle.toNat
    (∀ xd xa, i = .sleep xd xa → (late xa → wakes .sleepWake) ∧ (¬late xa → exec .sleepWake s = .next s)) ∧
    (∀ xd xa xb, i = .cpywait xd xa xb → (late xb → wakes .copyDeadlineLate) ∧ (¬late xb → exec .copyDeadlineLate s = .next s)) ∧
    (∀ xd xa xb, i = .lkwait xd xa xb → (late xb → wakes .collectiveDeadlineLate) ∧ (¬late xb → exec .collectiveDeadlineLate s = .next s)) ∧
    (((∃ xd xa k q, i = .sywait xd xa k q) ∨ (∃ xd k r q, i = .sybar xd k r q) ∨ (∃ xd xa xc k e r q, i = .sybc xd xa xc k e r q) ∨
        (∃ xd xa xc k e u r q, i = .syred xd xa xc k e u r q) ∨ (∃ xd xa xb q m, i = .rzwait xd xa xb q m)) →
      (waitedOut s.core → wakes .syncWaitTimeout) ∧ (¬waitedOut s.core → exec .syncWaitTimeout s = .next s)) ∧
    (∀ xd xa, i = .sleep xd xa → late xa → t.core.early = [] → s.core.inbox = [] → t.core.x = s.core.x → t.core.cycle = s.core.cycle → t.core.inbox = s.core.inbox →
      ∃ u, exec .sleepWake s = .next u ∧ t.WritesX u xd 0#64 0#5) ∧
    (∀ xd xa xb k, i = .cpywait xd xa xb → late xb → t.core.early = [] → t.core.x = s.core.x → t.core.cycle = s.core.cycle → s.core.latetrap = false →
      t.core.ps = s.core.ps → t.core.kind ≠ .command → k = t.core.channel ((s.core.xr xa).extractLsb' 29 3).toNat →
      seqWindow 29 k.lastSeq ((s.core.xr xa).extractLsb' 0 29).toNat ≤ 0 → k.status ((s.core.xr xa).extractLsb' 0 29).toNat = none →
      ∃ u, exec .copyDeadlineLate s = .next u ∧ t.WritesX u xd 1#64 0#5) ∧
    (∀ xd xa xb, i = .lkwait xd xa xb → late xb → t.core.early = [] → t.core.x = s.core.x → t.core.cycle = s.core.cycle → s.core.latetrap = false →
      t.core.ps = s.core.ps → t.core.kind ≠ .command → t.core.linkWindow ((s.core.xr xa).extractLsb' 0 28).toNat ≤ 0 →
      t.linkStatus ((s.core.xr xa).extractLsb' 0 28).toNat = none →
      ∃ u, exec .collectiveDeadlineLate s = .next u ∧ t.WritesX u xd 1#64 0#5) ∧
    (∀ xd xa k q n g, i = .sywait xd xa k q → waitedOut s.core → t.core.early = [] → t.core.sytmo = s.core.sytmo → t.core.waitFrom = s.core.waitFrom →
      t.core.cycle = s.core.cycle → t.core.sytrap = false → t.segmentAt k.toNat = some (n, g) →
      (g.gen - (t.core.xr xa).setWidth 16).toInt < 0 → ∃ u, exec .syncWaitTimeout s = .next u ∧ t.WritesX u xd 1#64 0#5))

/-- R236-R238, R240, R243: the oldest transfer of a channel begins with its watermark at its first byte; a beat moves the next bytes of the
channel whose turn it is, up to a 128-byte boundary of the destination, raises the watermark to its end and passes the turn on; the last one,
which TRANSFER_COMPLETE names, takes the transfer from the queue; the beat reads and writes under the ASID of its CPYGO (R323); a beat of a
transfer with a rendezvous object takes its bytes from the object's count, and the phase completes when nothing is pending; an error records its
seq, empties the queue, gives its objects their counts back, and leaves the watermark at the hi of the last completed transfer (R233). A
watermark of 2^52 reads 0, the model's choice (log entry 68). -/
def Obligations.CopyEventResults : Prop :=
  ∀ (s : State) (k : Fin 8) (t : Transfer) (rest : List Transfer),
    let c := s.core.copies[k]
    let row := t.moved / t.rowbytes
    let off := t.moved % t.rowbytes
    let da := ((t.dst : Int) + row * t.dstride).toNat + off
    let sa := ((t.src : Int) + row * t.sstride).toNat + off
    let n := min (t.rowbytes - off) (128 - da % 128)
    let last : Prop := t.moved + n = t.rows * t.rowbytes
    let u : State := { s with core := { s.core with copyTurn := (k + 1) % 8 } }
    let under : State := { u with core := { u.core with asid := BitVec.ofNat 12 t.asid } }
    let p := if under.isRemote t.asid s.core.colour.toNat da && (under.core.apertureAt da).isNone then Point.home else under.scopePoint t.scope da
    let moved := ((under.touchRange sa n).pushRange p da n).putRange p da true (under.peekBytes sa n)
    let v : State := { moved with core := { moved.core with asid := s.core.asid } }
    let mark (a : Nat) : Word := BitVec.ofNat 64 (a % 2 ^ 52)
    let object : State := ({ v with core := { v.core with asid := BitVec.ofNat 12 t.asid } } : State).touchRange t.rz 16
    let old := object.rendezvous t.rz
    let left := (old.bytes + 2 ^ 28 - n) % 2 ^ 28
    let new : Rendezvous := if old.pending = 0 ∧ left = 0 then
        { old with bytes := 0, phase := (old.phase + 1) % 16, pending := old.expected }
      else { old with bytes := left }
    let counted : State := (List.range 16).foldl (fun z i => z.putStash (t.rz + i) (BitVec.ofNat 8 (new.toNat / 256 ^ i))) object
    let z : State :=
      if t.rzen = true ∧ ({ v with core := { v.core with asid := BitVec.ofNat 12 t.asid } } : State).inStash t.rz = true then
        { counted with core := { counted.core with asid := s.core.asid } }
      else v
    let beats (e : Instr) : Prop := s.core.beatChannel = some k.val → u.beatFails t = false → u.heldBy z = [] →
      (last → exec e s = .next { z with core := { z.core with copies := z.core.copies.set k { c with
        queue := rest, completed := mark t.dstBox.2, wm := mark t.dstBox.2 } } }) ∧
      (t.moved + n < t.rows * t.rowbytes → exec .copyBeat s = .next { z with core := { z.core with copies := z.core.copies.set k { c with
        queue := { t with moved := t.moved + n } :: rest, wm := mark (da + n) } } })
    c.queue = t :: rest →
      (t.begun = false → s.ownStores = [] → s.ownPosts = [] → s.ownColls = [] →
        exec (.copyTransferBegin k) s = .next { s with core := { s.core with copies := s.core.copies.set k { c with
          queue := { t with begun := true } :: rest, wm := mark t.dstBox.1 } } }) ∧
      (t.begun = true → beats .copyBeat ∧ beats (.transferComplete k) ∧
        (let fails (b : State) : State :=
           let e := b.uncount c.queue
           { e with
             core := { e.core with copies := e.core.copies.set k { c with queue := [], error := some t.seq, wm := c.completed } }
             card := { e.card with service := { e.card.service with copyErrors := e.card.service.copyErrors + 1 } } }
         exec (.transferError k) s = .next (fails s) ∧
         (s.core.beatChannel = some k.val → u.beatFails t = true → exec .copyBeat s = .next (fails (u.countBeat t)))) ∧
        ((∀ x ∈ c.queue, x.rzen = false) → s.uncount c.queue = s))

/-- R118, R122-R124, R145, R219, R220, R228, R230, R329, R332, R334, R427: POST_QUEUE_SEND sends the oldest post once no older store meets its
range; RED_PERFORM applies a reduction where its target is, or logs it with the fault of its check or of the uncorrectable data that it meets;
SKETCH_OPERATION_BEGIN writes the record and holds the counter updates, COUNTER_APPLY makes those of a controller in their order, and
SKETCH_ACKNOWLEDGE ends an operation with none left; a full log holds every operation, and a strand's later posts are logged behind its pending
entry. What an older packet of the same way stands before waits. The cause 0 of those, a controller's updates in one go and one strand over its
incarnations are the model's choices (log entries 20, 32 and 36). -/
def Obligations.PostEventResults : Prop :=
  ∀ (s : State) (n m : Nat) (bad : Option Nat) (p : Post) (rest : List Post) (j : SketchJob) (plan : SketchPlan),
    let gone : State := { s with card := { s.card with flight := s.card.flight.eraseIdx n } }
    let ctrl := s.logController p
    let logs (e : Instr) (cause faddr : Nat) : Prop :=
      ∀ t, gone.logPost ctrl p cause faddr .pending = (true, t) → exec e s = .next (t.countAbsent p.asid p.colour (cause / 64) (cause % 64) faddr)
    (s.core.posts = p :: rest → s.core.releaseStore = false → (∀ q ∈ s.ownStores, overlap p.range q = false) →
      exec .postQueueSend s = .next { s with
        core := { s.core with posts := rest }
        card := { s.card with flight := s.card.flight ++ [{ p with number := s.card.packets }], packets := s.card.packets + 1 } }) ∧
    (s.core.posts = p :: rest → s.core.releaseStore = true ∨ (∃ q ∈ s.ownStores, overlap p.range q = true) →
      exec .postQueueSend s = .next s) ∧
    (s.card.flight[n]? = some p → (∀ q ∈ s.card.flight.take n, sameStrand p.strand q.strand = false) → s.postOvertaken p = false →
      (∀ op type, p.kind = .red op type →
        (s.stashTarget p = true → exec (.redPerform (n, bad)) s = .next (gone.applyRed p op type)) ∧
        (s.stashTarget p = false → s.card.logFull ctrl p = true → exec (.redPerform (n, bad)) s = .next s) ∧
        (s.stashTarget p = false → s.card.logFull ctrl p = false → s.card.hasPending ctrl p = true → logs (.redPerform (n, bad)) 0 0) ∧
        (s.stashTarget p = false → s.card.logFull ctrl p = false → s.card.hasPending ctrl p = false →
          (s.redFault p type = none → bad = none → s.peerWaits p = false → s.heldBy (gone.applyRed p op type) = [] →
            exec (.redPerform (n, bad)) s = .next (gone.applyRed p op type)) ∧
          (∀ b d, s.redFault p type = some (b, d) → logs (.redPerform (n, bad)) (3 * 64 + d) b) ∧
          (∀ b, s.redFault p type = none → bad = some b → overlap (p.addr, p.addr + redBytes type) (b / 128 * 128, b / 128 * 128 + 128) = true →
            logs (.redPerform (n, bad)) (11 * 64) (b / 128 * 128)))) ∧
      (p.isSketch = true → s.card.logFull ctrl p = true → exec (.sketchOperationBegin (n, bad)) s = .next s) ∧
      (p.isSketch = true → (∀ k ∈ s.card.jobs, sameStrand p.strand k.post.strand = false) → s.card.logFull ctrl p = false →
        (s.card.hasPending ctrl p = true → logs (.sketchOperationBegin (n, bad)) 0 0) ∧
        (s.card.hasPending ctrl p = false →
          (s.planSketch p bad = .ok plan → s.heldBy (gone.beginPlan p plan) = [] → exec (.sketchOperationBegin (n, bad)) s =
            let t := gone.beginPlan p plan
            .next { t with card := { t.card with jobs := t.card.jobs ++ [⟨p, plan.updates⟩] } }) ∧
          (∀ cls d b, s.planSketch p bad = .error (cls, d, b) → logs (.sketchOperationBegin (n, bad)) (cls * 64 + d) b)))) ∧
    (s.card.jobs[n]? = some j →
      (let mine := j.updates.filter fun u => s.counterController j.post u.1 == m
       let t := mine.foldl (fun t u => t.applyUpdate j.post u) s
       s.heldBy t = [] →
        exec (.counterApply n m) s = .next { t with card := { t.card with jobs := t.card.jobs.set n { j with
          updates := j.updates.filter fun u => s.counterController j.post u.1 != m } } }) ∧
      (j.updates = [] → exec (.sketchAcknowledge n) s = .next { s with card := { s.card with jobs := s.card.jobs.eraseIdx n } }) ∧
      (j.updates ≠ [] → exec (.sketchAcknowledge n) s = .next s))

/-- R246-R248, R252, R253, R334, R418, R419, R428: a push arrives at the end of its lane, which its first sender keeps; a window count returns to
its sender; a message enters the inbox of its target's core while that has room, with its sender's count one less, is dropped and counted at a
core of another colour, and is queued for the firmware with its reason when its target has another incarnation or is parked; the firmware accepts
it for its launch. With the bridge down a message for the peer's strand is held. The order of these checks, the drop of another colour's message
with its sender waiting on, and one strand over its incarnations are the model's choices (log entry 36). -/
def Obligations.DeliveryEventResults : Prop :=
  ∀ (s : State) (n : Nat) (p : Post) (q l : Nat) (g : GradQueue) (lane : GradLane) (m : Message) (colour : Nat)
    (r : CountReturn),
    (s.card.flight[n]? = some p → p.kind = .push q l → (∀ x ∈ s.card.flight.take n, sameStrand p.strand x.strand = false) →
      s.postOvertaken p = false →
      s.card.logFull (s.logController p) p = false → s.card.hasPending (s.logController p) p = false → s.pushForeign p q = false →
      s.card.queues.find? (fun g => g.launch == strandLaunch p.strand && g.queue == q) = some g →
      g.lanes.find? (fun x => x.lane == l) = some lane → (∀ w, lane.sender = some w → sameStrand w p.strand = true) →
      exec (.gradientEntryArrival n) s = .next { s with card := { s.card with
        flight := s.card.flight.eraseIdx n
        queues := s.card.queues.map fun h => if h.launch = g.launch ∧ h.queue = g.queue then
          { g with lanes := g.lanes.map fun x => if x.lane = lane.lane then
            { lane with sender := some (lane.sender.getD p.strand), entries := lane.entries ++ [⟨p.values, p.oper, p.strand, p.core⟩] } else x }
          else h } }) ∧
    (s.card.returns[n]? = some r → s.core.run = .running → sameStrand s.core.strand r.strand = true →
      s.overtaken (r.stop, stopOf s.core.num) r.number = false →
      ∃ t, exec (.windowCountReturn n) s = .next t ∧
        t.core.windowCount r.queue r.lane = some ((s.core.windowCount r.queue r.lane).getD 0 + 1) ∧
        (∀ q' l', (q', l') ≠ (r.queue, r.lane) → t.core.windowCount q' l' = s.core.windowCount q' l') ∧
        t = { s with
          core := { s.core with windowCounts := t.core.windowCounts }
          card := { s.card with returns := s.card.returns.eraseIdx n } }) ∧
    (s.card.messages[n]? = some (m, colour) → s.messageBehind n ⟨m, colour, 48, none⟩ = false → s.core.run = .running →
      sameStrand s.core.strand m.target = true →
      (s.core.colour.toNat ≠ colour → exec (.messageArrival n) s = .next { s with card := { s.card with
        messages := s.card.messages.eraseIdx n, service := { s.card.service with fabricDrops := s.card.service.fabricDrops + 1 } } }) ∧
      (s.core.colour.toNat = colour → strandIncarnation s.core.strand = strandIncarnation m.target → s.core.parked = .free → s.core.inbox.length < 16 →
        (∀ d ∈ s.card.cores, ¬(d.run = .running ∧ sameStrand d.strand m.sender = true)) → sameStrand s.core.strand m.sender = false →
        exec (.messageArrival n) s = .next { s with
          core := { s.core with inbox := s.core.inbox ++ [m] }
          card := { s.card with messages := s.card.messages.eraseIdx n }
          peer := { s.peer with cores := s.peer.cores.map fun c =>
            if c.run == .running && sameStrand c.strand m.sender then { c with unaccepted := c.unaccepted - 1 } else c } }) ∧
      (s.core.colour.toNat = colour → strandIncarnation s.core.strand = strandIncarnation m.target → s.core.parked = .free →
        16 ≤ s.core.inbox.length →
        exec (.messageArrival n) s = .next s) ∧
      (∀ reason, s.core.colour.toNat = colour → (strandIncarnation s.core.strand ≠ strandIncarnation m.target ∧ reason = 1) ∨
          (strandIncarnation s.core.strand = strandIncarnation m.target ∧ s.core.parked ≠ .free ∧ reason = 2 ∧
            s.placesStrand m.target = true) →
        exec (.messageArrival n) s = .next { s with card := { s.card with
          messages := s.card.messages.eraseIdx n
          undeliverable := s.card.undeliverable ++ [(m, reason)] } })) ∧
    (s.card.messages[n]? = some (m, colour) → s.messageBehind n ⟨m, colour, 48, none⟩ = false →
      (∀ d ∈ s.core :: s.card.cores, ¬(d.run = .running ∧ sameStrand d.strand m.target = true)) → s.placesStrand m.target = false →
      (∃ lch ∈ s.peer.launches, lch.id = strandLaunch m.target) → s.card.bridge.up = false → exec (.messageArrival n) s = .next s) ∧
    (∀ reason lch, s.card.undeliverable[n]? = some (m, reason) →
      (∀ x ∈ s.card.undeliverable.take n, x.1.sender ≠ m.sender ∨ x.1.target ≠ m.target) →
      s.card.launches.find? (fun k => k.id == strandLaunch m.target) = some lch →
      exec (.undeliverableAccept n) s = .next
        ((({ s with card := { s.card with undeliverable := s.card.undeliverable.eraseIdx n } } : State).acceptUndeliverable lch m reason).accepted
          m.sender))

/-- R256-R258, R443: COLLECTIVE_PAIRING pairs the nth collective of a tag on each card, a strand's in the order of its link queue: LKRED sums
BF16-rounded terms, card 0's first, into both buffers, LKSKADD sums counters and records; unequal counts or records, a buffer or record that
cannot be used, at whose walks malformed entries are counted (R384), and a bridge that is down, end in error; COLLECTIVE_COMPLETE gives a paired
one its status. That a bridge that is down ends an unpaired collective in error is the model's choice (log entry 33). -/
def Obligations.CollectiveEventResults : Prop :=
  ∀ (s : State) (n : Nat) (a b : Collective), s.card.colls[n]? = some a →
    let set (l : List Collective) (k : Collective) (st : CollStatus) : List Collective := l.map fun c => if c = k then { c with status := st } else c
    let paired (u : State) (failed : Bool) : State := { u with
      card := { u.card with colls := set u.card.colls a (.paired failed) }
      peer := { u.peer with colls := set u.peer.colls b (.paired failed) } }
    let go (u : State) : Prop := exec (.collectivePairing n) s = .next u
    (a.status = .pending → linkFirst s.card.colls a = true → s.card.bridge.up = false →
      go { s with card := { s.card with colls := set s.card.colls a (.paired true) } }) ∧
    (a.status = .pending → linkFirst s.card.colls a = true → s.card.bridge.up = true →
      s.peer.colls.find? (fun b => b.tag == a.tag && b.ordinal == a.ordinal && b.status == .pending) = some b →
      linkFirst s.peer.colls b = true → s.card.hostLines = [] → s.peer.hostLines = [] →
      (∀ k, a.kind = .red k → b.kind = .red k → s.bufferOk a k = true → s.swap.bufferOk b k = true →
        let r := ((s.collRead a a.addr (4 * k)).swap.collRead b b.addr (4 * k)).swap
        let x := r.bufferOf a k
        let y := r.swap.bufferOf b k
        let bf (c : Nat) : Val := decodeFloat bf16 (roundVal bf16 .nearest true (decodeFloat fp32 c)).code
        let v := (if s.card.bridge.cardZero then x.zip y else y.zip x).flatMap fun p =>
          toBytes 4 (roundVal fp32 .nearest true (addVal false (bf p.1) (bf p.2)).1).code
        go (paired ((r.writeHomeBytes a.asid a.colour a.addr v).swap.writeHomeBytes b.asid b.colour b.addr v).swap false)) ∧
      (∀ k j, a.kind = .red k → b.kind = .red j → k ≠ j ∨ s.bufferOk a k = false ∨ s.swap.bufferOk b k = false →
        go (paired (s.countPair a b) true)) ∧
      (∀ k j, a.kind = .red k → b.kind = .red j → s.bufferOk a k = true → s.swap.bufferOk b j = true → k ≠ j → go (paired s true)) ∧
      (∀ k, a.kind = .red k → b.kind = .sketch → go (paired s true)) ∧
      (a.kind = .sketch → b.kind = .sketch → s.sketchPending a = false → s.swap.sketchPending b = false →
        (∀ r q, s.pairRecord a = some r → s.swap.pairRecord b = some q →
          (r.depth = q.depth ∧ r.lgw = q.lgw ∧ r.seedset = q.seedset ∧ r.scale = q.scale → go (paired (s.sketchPair a b r q) false)) ∧
          (¬(r.depth = q.depth ∧ r.lgw = q.lgw ∧ r.seedset = q.seedset ∧ r.scale = q.scale) → go (paired s true))) ∧
        (s.pairRecord a = none ∨ s.swap.pairRecord b = none → go (paired (s.countPair a b) true)))) ∧
    (a.status = .paired false → exec (.collectiveComplete n) s = .next { s with card := { s.card with colls := set s.card.colls a .done } }) ∧
    (a.status = .paired true → exec (.collectiveComplete n) s = .next { s with card := { s.card with
      colls := set s.card.colls a .error
      service := { s.card.service with collErrors := s.card.service.collErrors + 1 } } })

/-- R333, R336-R338: once software has written to the doorbell line of a side log its replay goes on from entry to entry: the oldest pending one,
a RED, a sketch post or a push, is applied where its access is now allowed, and takes its new cause, at which the replay stops, where it is not;
one to which software has written state 0b11 is discarded and counted with its launch; one of another class stops the replay; a RED to the peer
with the bridge down makes it wait. SIDE_LOG_DISCARD discards such an entry too. The two events, and a push of a second sender at its replay, are
the model's choices (log entry 20). -/
def Obligations.SideLogEventResults : Prop :=
  ∀ (s : State) (ctrl colour seq : Nat) (bad : Option Nat) (e : LogEntry),
    let l := s.card.sideLog ctrl colour
    let u : State := { s with card := { s.card with sideLogs := s.card.sideLogs.map fun l =>
      if l.ctrl = ctrl ∧ l.colour = colour then { l with rung := false, replaying := false } else l } }
    let log (a : State) : SideLog := a.card.sideLog ctrl colour
    let first (a : State) : Option LogEntry := (log a).entries.find? fun e => e.state == .pending
    let tried (a : State) (e : LogEntry) : Prop :=
      first a = some e ∧ e.marked = false ∧ (e.cause / 64 = 3 ∨ e.cause = 0) ∧ a.secondSender e.post = false
    let applies (a : State) (p : Post) (t : State) : Prop :=
      (∃ op type, p.kind = .red op type ∧ a.redFault p type = none ∧ readCheck bad p.addr (redBytes type) = .ok () ∧ a.peerWaits p = false ∧
        t = a.applyLogged p op type ∧ a.heldBy t = []) ∨
      (∃ q l, p.kind = .push q l ∧ t = a.landPush p) ∨
      (p.isSketch = true ∧ ∃ plan, a.planSketch p bad = .ok plan ∧ t = a.applyPlan p plan ∧ a.heldBy t = [])
    let goes (a b : State) : Prop :=
      (∃ e, first a = some e ∧ e.marked = true ∧ b = (a.countDiscard e.post).putEntry (log a) { e with state := .discarded }) ∨
      (∃ e t, tried a e ∧ applies a e.post t ∧ b = t.putEntry (log t) { e with state := .applied }) ∨
      (∃ e, first a = some e ∧ e.marked = false ∧ (e.cause / 64 = 3 ∨ e.cause = 0) ∧ a.secondSender e.post = true ∧
        let f : LogEntry := { e with cause := 8 * 64 + 4, state := .discarded }
        b = (((a.returnPush e.post).countDiscard e.post).putEntry (log a) f).sendReport (log a) f)
    let fails (a : State) (e : LogEntry) (cls d b : Nat) : State :=
      let e' : LogEntry := { e with cause := cls * 64 + d, faddr := BitVec.ofNat 64 b }
      ((a.countAbsent e.post.asid e.post.colour cls d b).putEntry (log a) e').sendReport ((log a).put e').advance e'
    let rings (t : State) : Prop := exec (.sideLogDoorbell (ctrl, bad) colour) s = .next t
    (l.rung = false → rings s) ∧
    (l.rung = true → ∀ (n : Nat) (S : Nat → State), n < l.entries.length → S 0 = u → (∀ i < n, goes (S i) (S (i + 1))) →
      (first (S n) = none → rings (S n)) ∧
      (∀ e, first (S n) = some e → e.marked = false → e.cause / 64 ≠ 3 → e.cause ≠ 0 → rings (S n)) ∧
      (∀ e op type b d, tried (S n) e → e.post.kind = .red op type → (S n).redFault e.post type = some (b, d) → rings (fails (S n) e 3 d b)) ∧
      (∀ e op type cls d b, tried (S n) e → e.post.kind = .red op type → (S n).redFault e.post type = none →
        readCheck bad e.post.addr (redBytes type) = .error (cls, d, b) → rings (fails (S n) e cls d b)) ∧
      (∀ e op type, tried (S n) e → e.post.kind = .red op type → (S n).redFault e.post type = none →
        readCheck bad e.post.addr (redBytes type) = .ok () → (S n).peerWaits e.post = true →
        rings { S n with card := { (S n).card with sideLogs := (S n).card.sideLogs.map fun l =>
          if l.ctrl = ctrl ∧ l.colour = colour then { l with replaying := true } else l } }) ∧
      (∀ e cls d b, tried (S n) e → e.post.isSketch = true → (S n).planSketch e.post bad = .error (cls, d, b) → rings (fails (S n) e cls d b)) ∧
      (∀ t, n + 1 = l.entries.length → goes (S n) t → rings t)) ∧
    (l.entries.find? (fun e => e.seq == seq && e.state == .pending) = some e →
      (e.marked = true → exec (.sideLogDiscard ctrl colour seq) s = .next ((s.countDiscard e.post).putEntry l { e with state := .discarded })) ∧
      (e.marked = false → exec (.sideLogDiscard ctrl colour seq) s = .next s))

/-- R304, R369, R371, R374, R375, R379, R380, R384, R429: fills and clean evictions change no byte at its home: a present translation alone fills
the permission TLB; a unit's walk fills its TLB; a window granule and a cluster-cache line fill, and no byte changes at its home while no cache
has to make room, but for the hotness counters, which are bytes of HBM (R391); a walk that finds nothing caches nothing; a victim is written back
before it leaves the cluster cache or L2; stale versions are swept before they wrap; a combinable read takes an entry of a router's table, or is
absorbed behind one. -/
def Obligations.CacheEventResults : Prop :=
  ∀ (s : State) (va k line asid colour router : Nat) (l : Leaf) (x : CacheLine) (y : L2Line),
    let me := s.core.asid.toNat
    let col := s.core.colour.toNat
    let room : Prop := (∀ c ∈ s.card.clusters.toList, c.lines.length < 16) ∧
      (∀ k ∈ [s.card, s.peer], k.l2.length < 16 ∧ k.service.mappedOut = [] ∧ k.unitTlb = []) ∧ s.card.combining = []
    let home (t : State) : Prop := ∀ a, t.homeValue me col a = s.homeValue me col a
    let inLine (tag : Nat) : Prop := lineTag tag = tagOf me (va - va % 128)
    let kept (t : State) : Prop := ∀ tag pa, (∀ m r o, pa ≠ hotAddress m r o ∧ pa ≠ hotAddress m r o + 1) →
      ((inLine tag → s.homeOf me col (va - va % 128 + tag % 128) = some (.local pa)) → t.card.homeByte tag pa = s.card.homeByte tag pa) ∧
      ((inLine tag → s.homeOf me col (va - va % 128 + tag % 128) = some (.peer pa)) → t.peer.homeByte tag pa = s.peer.homeByte tag pa)
    let entry : TlbEntry := ⟨if shared va then 0 else me, col, va / 2 ^ l.lg, l.lg, l.r, l.w, l.x, l.sup⟩
    (s.card.translate me col va = none → exec (.permissionTlbMiss va) s = .next s) ∧
    (s.card.translate me col va = some l →
      ∃ t, exec (.permissionTlbMiss va) s = .next t ∧ t = { s with core := { s.core with tlb := t.core.tlb } } ∧
        entry ∈ t.core.tlb ∧ ∀ e ∈ t.core.tlb, e ∈ s.core.tlb ∨ e = entry) ∧
    (shared va = false → s.card.walkCache = [] → s.card.unitTlb = [] →
      ∃ t, exec (.memorySideWalk asid colour va) s = .next t ∧
        t = { s with card := { s.card with walkCache := t.card.walkCache, malformed := t.card.malformed, unitTlb := t.card.unitTlb } } ∧
        (∀ a, s.card.walk asid colour va = some a → t.card.unitTlb = [⟨unitOf (asid * 2 ^ 52 + va), asid, colour, va / 2 ^ a.lg, a.atBase va⟩]) ∧
        (s.card.walk asid colour va = none → t.card.unitTlb = [] ∧ t.card.walkCache = [])) ∧
    (∀ off h, s.core.windowOff me va = some off → s.homeOf me col va = some h → s.core.stash.byte? off = none →
      exec (.windowGranuleFill va) s = .next (s.fillGranule me col va off) ∧
        (room → va < 2 ^ 52 → kept (s.fillGranule me col va off))) ∧
    (clusterOf s.core.num = some k →
      exec (.clusterCacheFill va) s = .next (s.fillLine k me col va) ∧ (room → va < 2 ^ 52 → kept (s.fillLine k me col va))) ∧
    (k < 32 → ((s.clusterAt k).victim line).map CacheLine.tag = some line →
      let t := s.writeBackLine k ((s.card.clusterOwner k).getD 0) line
      (s.heldBy t = [] → exec (.clusterCacheVictim k line) s = .next (t.setCluster k ((t.clusterAt k).evict line))) ∧
      ((s.clusterAt k).find line = some x → x.dmask = 0#128 →
        ∃ u, exec (.clusterCacheVictim k line) s = .next u ∧ home u ∧ (u.clusterAt k).find line = none ∧
          ∀ other, other ≠ line → (u.clusterAt k).find other = (s.clusterAt k).find other)) ∧
    ((s.card.l2Victim line).map L2Line.tag = some line → s.card.l2Find line = some y →
      (y.dmask = 0#128 → exec (.l2Victim line) s = .next { s with card := { s.card with l2 := s.card.l2.erase y } }) ∧
      (∀ pa, y.dmask ≠ 0#128 → Memory.rising s.card.hbm = true →
        (s.card.translate (tagAsid line) (s.card.lineColour line) (tagVa line)).map Leaf.target = some (.local pa) →
        ∃ u, exec (.l2Victim line) s = .next u ∧ u = { s with card := { s.card with l2 := s.card.l2.erase y, hbm := u.card.hbm } } ∧
          (∀ i < 128, readByte u.card.hbm (pa + i) = if y.dmask.getLsbD i then y.data.getD i 0#8 else readByte s.card.hbm (pa + i)) ∧
          ∀ a, a < pa ∨ pa + 128 ≤ a → readByte u.card.hbm a = readByte s.card.hbm a)) ∧
    (s.core.stash.ver = 255#8 → exec (.versionWrapSweep 0) s = .next { s with core := { s.core with stash := s.core.stash.sweep } }) ∧
    (clusterOf s.core.num = some k → (s.clusterAt k).pkgVer = 255#8 → exec (.versionWrapSweep 1) s = .next (s.setCluster k ((s.clusterAt k).sweep .package))) ∧
    (clusterOf s.core.num = some k → (s.clusterAt k).sysVer = 255#8 → exec (.versionWrapSweep 2) s = .next (s.setCluster k ((s.clusterAt k).sweep .system))) ∧
    (s.combinable va = true →
      let tag := lineTag (tagOf me va)
      ((∃ e ∈ s.card.combining, e.router = router ∧ e.tag = tag) →
        (∀ e ∈ s.card.combining, e.router = router → e.tag = tag → e.first ≠ s.core.num ∧ s.core.num ∉ e.absorbed) → exec (.routerCombine router va) s = .next { s with card := { s.card with
        combining := s.card.combining.map fun e => if e.router = router ∧ e.tag = tag then { e with absorbed := e.absorbed ++ [s.core.num] } else e } }) ∧
      ((∀ e ∈ s.card.combining, e.router ≠ router ∨ e.tag ≠ tag) → (s.card.combining.filter fun e => e.router == router).length < 16 →
        exec (.routerCombine router va) s = .next { s with card := { s.card with combining := s.card.combining ++ [⟨router, tag, s.core.num, []⟩] } }))

/-- R308, R431-R435, R448: a posted write of the host is numbered in its domain, held, and performs at its home once every lower-numbered one
has, with the host bits kept; a read completes after every posted write of its domain and returns the bytes at their home, a register read the
register or 0; every one of these wakes the package (R448); CXL.mem reads within the decoder's range give the host the line; a BIRsp clears the
host bit; a snoop of the host changes nothing; host memory accepts a store under way. An access at a malformed entry counts it (R384). The place
of a read window base register among the reads of the host (log entry 19) and the capacity of the host's decoder (57) are the model's choices. -/
def Obligations.HostAccessEventResults : Prop :=
  ∀ (s : State) (fn off n line : Nat) (bytes : List Byte) (relaxed : Bool) (w : IngressWrite) (d : DrainWrite) (v : Word),
    let va := s.windowVa off
    let f := s.fn 0
    let awake (t : State) : State := { t with card := { t.card with power := { t.card.power with
      lastUse := t.card.clocks[0], state := .active } } }
    let returns (t : State) (a k : Nat) : State := awake { t with host := { t.host with
      reads := (a, (List.range k).map fun i => s.homeValue 0 16 (a + i)) :: t.host.reads } }
    let merged (t : State) (a : Nat) : State :=
      let u := (t.countHost a bytes.length).writeHomeBytes 0 16 a bytes
      { u with card := { u.card with hostLines := t.card.hostLines } }
    va = 0xF000000000000 + (s.card.windowBase.toNat + off) % 2 ^ 48 ∧
    (off + bytes.length ≤ 2 ^ 31 →
      exec (.hostPostedWrite 0 off bytes relaxed none) s = .next (awake { s with card := { s.card with
        functions := s.card.functions.set 0 { f with ingress := if relaxed then f.ingress else f.ingress + 1 }
        held := s.card.held ++ [⟨0, if relaxed then none else some f.ingress, va, bytes⟩] } })) ∧
    (s.card.held[n]? = some w → w.bytes = bytes →
      ((∀ x ∈ s.card.held, ∀ i j, x.fn = w.fn → x.number = some i → w.number = some j → j ≤ i) →
        exec (.hostPostedWrite fn off [] relaxed (some n)) s =
          .next (merged { s with card := { s.card with held := s.card.held.eraseIdx n } } w.va)) ∧
      ((∃ x ∈ s.card.held, ∃ i j, x.fn = w.fn ∧ x.number = some i ∧ w.number = some j ∧ i < j) →
        exec (.hostPostedWrite fn off [] relaxed (some n)) s = .next s)) ∧
    (fn < 17 → (∀ x ∈ s.card.held, x.fn ≠ fn) →
      (∀ p ∈ [(0x00, (s.fn fn).cbase), (0x08, (s.fn fn).cqbase), (0x10, (s.fn fn).evbase), (0x18, (s.fn fn).lgsize.setWidth 64),
          (0x20, (s.fn fn).cprod.setWidth 64), (0x28, (s.fn fn).ccons.setWidth 64), (0x30, (s.fn fn).qprod.setWidth 64),
          (0x38, (s.fn fn).evprod.setWidth 64), (0x40, (s.fn fn).evcons.setWidth 64)],
        exec (.hostReadRequest fn (0, p.1) n) s = .next (awake { s with host := { s.host with registers := ((fn, p.1), p.2) :: s.host.registers } })) ∧
      (off < 2 ^ 16 → off ∉ [0x00, 0x08, 0x10, 0x18, 0x20, 0x28, 0x30, 0x38, 0x40] →
        exec (.hostReadRequest fn (0, off) n) s = .next (awake { s with host := { s.host with registers := ((fn, off), 0#64) :: s.host.registers } }))) ∧
    ((∀ x ∈ s.card.held, x.fn ≠ 0) → exec (.hostReadRequest 0 (1, off) n) s =
      .next (awake { s with host := { s.host with registers := ((0, 2 ^ 16), s.card.windowBase) :: s.host.registers } })) ∧
    (off + n ≤ 2 ^ 31 → (∀ x ∈ s.card.held, x.fn ≠ 0) → exec (.hostReadRequest 0 (2, off) n) s = .next (returns ((s.countHost va n).unitRead none 0 16 va n) va n)) ∧
    ((∃ x ∈ s.card.held, x.fn = fn) → exec (.hostReadRequest fn (2, off) n) s = .next s ∧ exec (.hostReadRequest fn (0, off) n) s = .next s) ∧
    (∀ pa, off < hdmBytes → s.homeOf 0 16 (sharedVa off) = some (.local pa) →
      let base := sharedVa off / 128 * 128
      (∀ t, t = returns ((s.countHost base 128).unitRead none 0 16 base 128) base 128 → tagOf 0 base ∉ t.card.hostLines →
        exec (.cxlMemRequest off []) s = .next { t with card := { t.card with hostLines := tagOf 0 base :: t.card.hostLines } }) ∧
      (bytes ≠ [] → bytes.length ≤ 128 - sharedVa off % 128 → exec (.cxlMemRequest off bytes) s = .next (awake (merged s (sharedVa off))))) ∧
    (hdmBytes ≤ off → exec (.cxlMemRequest off bytes) s = .next s) ∧
    (line ∈ s.card.snoops → exec (.bisnpResponse line) s = .next { s with card := { s.card with
      snoops := s.card.snoops.filter fun l => l != line, hostLines := s.card.hostLines.filter fun l => l != line
      sideLogs := s.card.sideLogs.map fun l => if l.replaying then { l with rung := true, replaying := false } else l } }) ∧
    exec (.hostSnoop n) s = .next s ∧
    (∀ a, s.drainSent = some d → s.core.apertureAt (tagVa d.tag) = none → d.target = .host a → s.card.bridge.domains = [] →
      let t := s.storeBytes d.tag d.target d.bytes
      exec (.cxlCacheResponse s.core.num) s = .next { t.passUpdates with core := t.core.popDrain }) ∧
    exec (.windowBaseWrite v) s = .next (awake { s with card := { s.card with windowBase := v &&& 0xFFFFFFFFFFFF#64 } })

/-- R332, R391, R395, R435-R437, R446, R447, R449: the doorbell and the ring registers store; a command that is the last of its ring completes
with its tag and its status: tokens count modulo 2^32, WAIT completes once its count has been reached, PARTITION lists its resources and gets HBM
for its side logs, the others change what they name; a function that may not give a command is told so, and the tables stay as they are; every
access of the host wakes the package (R448). The places of the operands and of a token's colour, the forms of measurements and counters and the
partition's conditions are the model's choices (log entries 17, 19, 20 and 37), and so is a write to a read-only register (74). -/
def Obligations.CommandResults : Prop :=
  ∀ (s : State) (fn tag : Nat) (ws : List Nat) (v : Word) (prod : BitVec 32),
    let f := s.fn fn
    let op (i : Nat) : Nat := ws.getD (i - 1) 0
    let colour := if fn = 0 then op 3 else fn - 1
    let asks := if fn = 0 then 16 else fn - 1
    let taken := s.setFn fn { f with ccons := f.ccons + 1#32 }
    let ends (i : Instr) (code status value : Nat) (effect : State → State) : Prop :=
      s.ordered fn code tag ws → exec i s = .next (s.answer fn tag status value effect)
    let own : Prop := fn = 0 ∨ fn = op 1 + 1
    let known (c : Nat) : Prop := ∃ p, s.card.partition c = some p
    let token : Prop := 1 ≤ op 1 ∧ op 1 ≤ 4095 ∧ op 2 < 2 ^ 32 ∧ colour < 16 ∧ known colour
    let keeps (i : Instr) (code : Nat) : Prop := fn ≠ 0 → ends i code 2 0 id
    (fn < 17 → prod = f.ccons → exec (.commandDoorbell fn prod) s = .next (s.setFn fn { f with cprod := prod }).touchPower) ∧
    (fn < 17 → exec (.commandRegisterWrite fn 0x00 v) s = .next (s.setFn fn { f with cbase := v }).touchPower) ∧
    (fn < 17 → exec (.commandRegisterWrite fn 0x08 v) s = .next (s.setFn fn { f with cqbase := v }).touchPower) ∧
    (fn < 17 → exec (.commandRegisterWrite fn 0x10 v) s = .next (s.setFn fn { f with evbase := v }).touchPower) ∧
    (fn < 17 → exec (.commandRegisterWrite fn 0x18 v) s = .next (s.setFn fn { f with lgsize := v.setWidth 16 &&& 0x0FFF#16 }).touchPower) ∧
    (fn < 17 → exec (.commandRegisterWrite fn 0x40 v) s = .next (s.setFn fn { f with evcons := v.setWidth 32 }).touchPower) ∧
    (∀ off, fn < 17 → off ∉ [0x00, 0x08, 0x10, 0x18, 0x40] → exec (.commandRegisterWrite fn off v) s = .next s.touchPower) ∧
    (token →
      ends (.signalToken fn) 0x0C 0 0 (fun u => u.mapPartition colour fun p => p.setToken (op 1) (p.token (op 1) + BitVec.ofNat 32 (op 2))) ∧
      ends (.setToken fn) 0x0D 0 0 (fun u => u.mapPartition colour fun p => p.setToken (op 1) (BitVec.ofNat 32 (op 2))) ∧
      (s.ordered fn 0x0E tag ws → exec (.waitToken fn) s = .next (s.setFn fn { f with
        ccons := f.ccons + 1#32, busy := some (tag, colour, op 1, op 2) }))) ∧
    (∀ (p : Partition) t u c, (p.setToken t c).token u = if u = t then c else p.token u) ∧
    (∀ c t n p, fn < 17 → f.busy = some (tag, c, t, n) → f.cprod = f.ccons → s.card.partition c = some p →
      (0 ≤ (p.token t - BitVec.ofNat 32 n).toInt → exec (.waitMet fn) s =
        .next ((s.setFn fn { f with busy := none }).completeCommand fn tag 0 0)) ∧
      ((p.token t - BitVec.ofNat 32 n).toInt < 0 → exec (.waitMet fn) s = .next s)) ∧
    (op 1 < 16 → own → known (op 1) → ends (.setPatience fn) 0x13 0 0 fun u => u.mapPartition (op 1) fun p => { p with patience := op 2 }) ∧
    (fn = 0 → op 1 < 16 → op 2 < 2 ^ 32 → op 3 < 2 ^ 32 → op 4 < 2 ^ 32 → op 5 < 2 ^ 28 → op 5 / 2 ^ 12 % 16 = 0 → 0 < op 5 % 2 ^ 12 →
      op 5 % 2 ^ 12 ≤ op 5 / 2 ^ 16 → (∀ l ∈ s.card.launches, l.colour ≠ op 1) →
      let others := s.card.partitions.filter fun p => p.colour != op 1
      (∀ p ∈ others, p.channels &&& BitVec.ofNat 32 (op 4) = 0#32 ∧ (p.asidLast < op 5 % 2 ^ 12 ∨ op 5 / 2 ^ 16 < p.asidFirst)) →
      ∀ old logs k, s.card.partition (op 1) = old →
        (old = none ∧ taken.card.giveLogs (op 1) (Config.choice s.draws) = some (logs, k)) ∨
          (∃ q, old = some q ∧ q.logs ≠ 0 ∧ logs = q.logs ∧ k = taken.card) →
        ends (.partition fn) 0x07 0 0 fun u =>
          let p : Partition := { old.getD (Partition.fresh (op 1)) with
            clusters := BitVec.ofNat 32 (op 2), badgers := BitVec.ofNat 32 (op 3), channels := BitVec.ofNat 32 (op 4)
            asidFirst := op 5 % 2 ^ 12, asidLast := op 5 / 2 ^ 16, quota := op 6, logs := logs }
          ({ u with card := { k with partitions := others ++ [p] } } : State).assignAsids old p (Config.choice u.draws)) ∧
    (fn = 0 → op 1 < 16 → op 2 < 16 → known (op 1) →
      ends (.bindBridge fn) 0x12 0 0 fun u => (u.mapPartition (op 1) fun p => { p with peerColour := some (op 2) }).train) ∧
    (shared (op 2) = true → op 2 + 16 * op 3 < 2 ^ 52 →
      (∀ vs : List Nat, (op 1, vs) ∈ [(1, (List.range 11).map fun i => countAt s.card.service.corrected i), (2, [s.card.service.fabricDrops]),
          (3, s.card.bridge.ports.toList.flatMap fun p => [p.failed, p.replayed, p.refused, p.degrades, p.trainings]), (4, [s.card.service.copyErrors, s.card.service.collErrors]),
          (5, [s.card.service.storesDropped]), (6, [s.card.service.lostEvents]), (7, [s.card.service.pacedClocks, s.card.service.clockSteps])] →
        ends (.queryCounters fn) 0x0F 0 (min (op 3) vs.length) fun u =>
          u.writeHomeBytes 0 asks (op 2) ((vs.take (op 3)).flatMap fun n => wordBytes (min n (2 ^ 64 - 1)))) ∧
      (∀ region, op 1 = 0 → op 3 = 1 → region = ofBytes (s.homeBytes 0 asks (op 2) 8) → region < 137330 →
        ends (.queryCounters fn) 0x0F 0 1 fun u =>
          let t := u.writeHomeBytes 0 asks (op 2) ((List.range 8).flatMap fun o => toBytes 2 (u.card.hotness region o))
          { t with card := t.card.clearHot region })) ∧
    (∀ region m o, Memory.rising s.card.hbm = true → m < 16 → o < 8 → (s.card.clearHot region).hotCount m region o = 0) ∧
    (fn = 0 → ∀ image, image = readBytes s.host.mem (op 1) (op 2) →
      (Config.signatureValid image = true → Config.rollbackCount ≤ Config.imageVersion image → Config.replacesRom image = false →
        ends (.updateFirmware fn) 0x10 0 0 fun u => { u with card := { u.card with firmware := ⟨Config.imageVersion image, image⟩ } }) ∧
      (Config.signatureValid image = false → ends (.updateFirmware fn) 0x10 4 0 id) ∧
      (Config.signatureValid image = true → Config.imageVersion image < Config.rollbackCount → ends (.updateFirmware fn) 0x10 5 0 id)) ∧
    (ends (.attest fn) 0x11 0 0 fun u => u.putHost (op 5) (u.signedReport ((List.range 4).flatMap fun i => wordBytes (op (i + 1))))) ∧
    keeps (.partition fn) 0x07 ∧ keeps (.bindBridge fn) 0x12 ∧ keeps (.updateFirmware fn) 0x10 ∧ keeps (.retireCore fn) 0x09

/-- R337, R386, R387, R468: MAP writes its leaf at its level, with the tables that it needs, drops what the permission TLBs held of the page, and
has the side logs of its partition replayed, as their doorbells would; UNMAP and REMAP, once no store drain, no migration and no host copy holds
bytes of the pages, write the dirty bytes down and then clear or replace the leaves; MIGRATE takes its page and goes through its four steps, and
completes with the last. The conditions under which UNMAP and REMAP wait, MIGRATE's steps by further events, the places of the operands and of
new tables are the model's choices (log entries 38, 19, 25). -/
def Obligations.PageCommandResults : Prop :=
  ∀ (s : State) (fn tag : Nat) (ws : List Nat) (x : AsidContext) (k : Card) (pages : List (Nat × Option Page)) (q : Page) (m : Migration),
    let op (i : Nat) : Nat := ws.getD (i - 1) 0
    let asid := op 1
    let va := op 2
    let ps := pages.filterMap Prod.snd
    let taken := s.setFn fn { s.fn fn with ccons := (s.fn fn).ccons + 1#32 }
    let ends (i : Instr) (code : Nat) (effect : State → State) : Prop :=
      s.ordered fn code tag ws → exec i s = .next (s.answer fn tag 0 0 effect)
    let flushed (u : State) : State := (u.shootDown asid ps).flushPages asid x.colour.toNat ps
    (asid < 4096 → va < 2 ^ 52 → s.card.ownAsid fn asid = true → s.card.context asid = some x →
      (∀ leaf : Word, leaf = BitVec.ofNat 64 (op 4) → op 3 ∈ [1, 2, 3] → va % 2 ^ pageLg (op 3) = 0 →
        leaf.getLsbD 0 = true → leaf.getLsbD 1 = true → leaf.getLsbD 6 = false → leaf.getLsbD 7 = false →
        (leaf.extractLsb' 8 40).toNat * 256 % 2 ^ pageLg (op 3) = 0 →
        taken.card.mapWalk asid (op 3) leaf va (Config.choice s.draws) [4, 3, 2, 1] x.root = .ok k →
        ends (.mapPages fn) 0x03 fun u =>
          (if asid = 0 then k.partitions.map Partition.colour else (k.payer asid).toList).foldl State.replayPartition
            (({ u with card := k } : State).shootDown asid [⟨va, pageLg (op 3), op 3, 0⟩])) ∧
      (op 3 ≤ 2 ^ 36 → s.card.pagesFrom x.root (op 3) va = some pages → s.drainHolds asid ps = false → s.card.hostLines = [] →
        s.card.migrations = [] →
        (ends (.unmapPages fn) 0x04 fun u => { flushed u with card := ps.foldl (fun k p => k.putEntryAt p.entry 0#64) (flushed u).card }) ∧
        (leafOk 1 (BitVec.ofNat 64 (op 4)) = true → (∀ p ∈ remapLeaves (BitVec.ofNat 64 (op 4)) pages, leafOk p.1.level p.2 = true) →
          ends (.remapPages fn) 0x05 fun u => { flushed u with
            card := (remapLeaves (BitVec.ofNat 64 (op 4)) pages).foldl (fun k p => k.putEntryAt p.1.entry p.2) (flushed u).card })) ∧
      (s.card.leafAt va [4, 3, 2, 1] x.root = some q → op 3 % 2 ^ q.lg = 0 → op 3 + 2 ^ q.lg ≤ hbmBytes →
        (s.card.entryAt q.entry).getLsbD 7 = false →
        let pa := entryAddr (s.card.entryAt q.entry &&& ~~~(0x80#64))
        pa + 2 ^ q.lg ≤ hbmBytes → overlap (pa, pa + 2 ^ q.lg) (op 3, op 3 + 2 ^ q.lg) = false →
        s.ordered fn 0x06 tag ws → exec (.migrate fn) s = .next { taken with card := { taken.card with
          migrations := s.card.migrations ++ [⟨fn, tag, asid, q.va / 2 ^ q.lg * 2 ^ q.lg, q.entry, pa, op 3, q.lg, 0⟩] } })) ∧
    (s.card.migrations.find? (fun m => m.fn == fn) = some m →
      let leaf (pa : Nat) (mig : Bool) : State :=
        { s with card := (s.card.putEntryAt m.leaf (moveLeaf (s.card.entryAt m.leaf) pa mig)).dropPage m }
      let goesOn (t : State) : Prop := exec (.migrate fn) s = .next { t with card := { t.card with
        migrations := t.card.migrations.map fun n => if n.fn = m.fn then { n with steps := m.steps + 1 } else n } }
      let last : State := { leaf m.new false with card := { (leaf m.new false).card with
        migrations := s.card.migrations.filter fun n => n.fn != m.fn } }
      (m.steps = 0 → goesOn (leaf m.old true)) ∧
      (m.steps = 1 → goesOn { s with card := s.card.cleanPage m }) ∧
      (m.steps = 2 → goesOn { s with card := { s.card with hbm := copyPage s.card.hbm m.old m.new (2 ^ m.lg) } }) ∧
      (m.steps = 3 → fn < 17 → (s.fn fn).cprod = (s.fn fn).ccons → exec (.migrate fn) s = .next (last.completeCommand fn m.reply 0 0)) ∧
      (overlap (m.old, m.old + 2 ^ m.lg) (m.new, m.new + 2 ^ m.lg) = false → Memory.wf s.card.hbm = true →
        ∀ i < 2 ^ m.lg, readByte (copyPage s.card.hbm m.old m.new (2 ^ m.lg)) (m.new + i) = readByte s.card.hbm (m.old + i)))

/-- R392, R402, R417, R420, R421, R425, R430, R437, R445: LAUNCH gives a record that passes its checks an id and queues it, and completes with
the id; of a refused record the completion record is written where its address and ASID can be used; CANCEL ends a launch's strands with status
7; PRE_EMPT and RETIRE_CORE begin the pre-emption of a partition and complete with its end; RESUME lets a partition be placed again; RESTITCH
keeps its rectangle and completes with RESTITCH_COMPLETE. The rectangle's word, the statuses and the clock of a refused record, the firmware's
choice of the id and RESUME's completion at once are the model's choices (log entries 19, 37, 16 and 15). -/
def Obligations.LaunchCommandResults : Prop :=
  ∀ (s : State) (fn tag : Nat) (ws : List Nat) (p : Partition) (l : Launch) (n : Nat) (r : Region),
    let op (i : Nat) : Nat := ws.getD (i - 1) 0
    let taken : State := s.setFn fn { s.fn fn with ccons := (s.fn fn).ccons + 1#32 }
    let ends (i : Instr) (code status value : Nat) (effect : State → State) : Prop :=
      s.ordered fn code tag ws → exec i s = .next (s.answer fn tag status value effect)
    let begins (i : Instr) (code : Nat) (t : State) : Prop := s.ordered fn code tag ws → exec i s = .next t
    let own (colour : Nat) : Prop := fn = 0 ∨ fn = colour + 1
    (shared (op 1) = true → op 1 % 256 = 0 → op 1 < 2 ^ 52 → (s.homeOf 0 (commandColour fn) (op 1)).isSome = true →
      let raw := rawLaunch ((List.range 32).map fun i => BitVec.ofNat 64 (ofBytes (s.homeBytes 0 (commandColour fn) (op 1 + 8 * i) 8)))
      (s.recordStatus fn raw = none → raw.isPair = false → ∃ id : BitVec 16, 1 ≤ id.toNat ∧ id.toNat < 2 ^ 15 ∧
        ends (.launch fn) 0x01 0 id.toNat fun u => { u with card := { u.card with
          launches := u.card.launches ++ [({ raw with id := id } : Launch).withSheaves 0] } }) ∧
      ∀ st, s.recordStatus fn raw = some st →
        ((s.card.asidOk raw && raw.doneOk) = true → own raw.colour →
          ends (.launch fn) 0x01 (if st = 2 then 1 else 3) 0 fun u => u.writeCompletion { raw with last := u.card.clockOf raw.colour } st) ∧
        ((s.card.asidOk raw && raw.doneOk) = false → ends (.launch fn) 0x01 (if st = 2 then 1 else 3) 0 id)) ∧
    (s.card.launches.find? (fun l => l.id.toNat == op 1) = some l → own l.colour → l.pair = .single →
      ends (.cancel fn) 0x02 0 0 fun u => u.cancelHere l.id) ∧
    (op 1 < 16 → own (op 1) → s.card.partition (op 1) = some p →
      (p.preempting = none → p.preempted = false → p.reply = none → s.card.preemptible (op 1) = true →
        begins (.preEmpt fn) 0x0A { taken with card := taken.card.beginPreemption (op 1) none (some (fn, tag)) none }) ∧
      (p.preempting = none → p.preempted = true → p.reply = none → s.card.preemptible (op 1) = true → ends (.preEmpt fn) 0x0A 0 0 id) ∧
      (s.card.preemptible (op 1) = false → ends (.preEmpt fn) 0x0A 3 0 id) ∧
      (p.preempting = none → ends (.resumePartition fn) 0x0B 0 0 fun u => u.mapPartition (op 1) fun p => { p with preempted := false }) ∧
      (∀ row col rows cols, row < 2 ^ 8 → col < 2 ^ 8 → 1 ≤ rows → 1 ≤ cols → row + rows ≤ 16 → col + cols ≤ 16 →
        op 2 = row + col * 2 ^ 8 + rows * 2 ^ 16 + cols * 2 ^ 24 → op 3 = 1 ∨ op 3 = 2 →
        (∀ i < rows, ∀ j < cols, p.hasCore (16 * (row + i) + col + j) = true ∧ s.card.occupied (16 * (row + i) + col + j) = false) →
        begins (.restitch fn) 0x08 { taken with card := { taken.card with
          regions := s.card.regions ++ [⟨op 1, row, col, rows, cols, op 3, false, some (fn, tag), none⟩] } })) ∧
    (fn = 0 → op 1 < 256 →
      (s.card.coreOwner (op 1) = none → ends (.retireCore fn) 0x09 0 0 fun u => u.retireNow (op 1)) ∧
      (s.card.coreOwner (op 1) = some p → s.card.preemptible p.colour = true → p.preempting = none →
        begins (.retireCore fn) 0x09 (taken.beginRetirement (op 1) p (some (fn, tag))))) ∧
    (s.card.regions[n]? = some r → r.complete = false →
      let t : State := { s with card := { s.card with regions := s.card.regions.set n { r with complete := true, reply := none } } }
      (r.reply = none → exec (.restitchComplete n) s = .next t) ∧
      (r.reply = some (fn, tag) → fn < 17 → (s.fn fn).cprod = (s.fn fn).ccons →
        exec (.restitchComplete n) s = .next (t.completeCommand fn tag 0 0)))

/-- R24, R25, R28, R32, R288, R328, R335, R406, R425: STRAND_START of a sheaf whose start is due gives each of its cores the start state: x1 the
argument pointer, x2 the index in the sheaf, x3 the sheaf, every other register at its launch value, the PC at the entry, s.ps from the record,
another incarnation than the core's last and than any that the strand has had, no exception state, and an acquire at SYSTEM scope; here for a
sheaf of one strand on the core in focus. RESUMPTION_ENTRY enters a strand that PREACK had stopped in supervisor mode at its class-13 vector,
parked, with detail 1, its image's address, the causes that were kept for it, of reports the first 8 (R316), and what its front end may not use
before an IFENCE (R340). That stash bytes stand as the last strand left them, the incarnation's number and the registers with which a resumption
begins are the model's choices (log entries 35, 16 and 26), and that s.ps.rnd starts as the record gives it (73). -/
def Obligations.StrandStartResults : Prop :=
  ∀ (s : State) (l : Launch) (h : Sheaf) (i : StrandInfo) (n : Nat),
    let k := s.card
    k.launchAt l.id = some l →
    (l.sheaves.find? (fun k => k.index == h.index) = some h → l.strandsOf h.index = [i] →
      i.core = some s.core.num → i.stopped = false → s.sheafDue l h = true → h.badger = false → i.past.length < 2 ^ 15 →
      ∃ t inc, exec (.strandStart l.id h.index) s = .next t ∧
        (∀ p, k.incarnations.find? (fun p => p.1 == s.core.num) = some p → inc ≠ p.2) ∧ (i.ran = true → inc ≠ i.inc) ∧ (∀ v ∈ i.past, inc ≠ v) ∧
        (∀ r, t.core.xr r = if r = 1#6 then BitVec.ofNat 64 (l.word 1) else if r = 3#6 then BitVec.ofNat 64 h.index else 0#64) ∧
        (∀ r, t.core.tr r = Tile.empty) ∧ (∀ r, t.core.ar r = Acc.zero) ∧ (∀ r, t.core.wr r = ⟨Tile.empty, Tile.empty⟩) ∧
        (∀ r, t.core.hr r = shapeReset) ∧ (∀ r, t.core.qr r = quantReset) ∧
        t.core.run = .running ∧ t.core.pc = BitVec.ofNat 64 (l.word 0) ∧ t.core.strand = strandWord l.id inc i.index ∧
        t.core.ps = BitVec.ofNat 64 (l.ctl 32 5 * 2 ^ 10 + l.ctl 37 2 * 2 ^ 8 + l.ctl 39 1 * 2 ^ 2 + l.ctl 40 1 * 2) ∧
        t.core.seed = BitVec.ofNat 64 (l.word 3) ∧ t.core.serial = 0 ∧ (l.word 4 ≠ 0 → t.core.tvec = BitVec.ofNat 64 (l.word 4)) ∧
        t.core.epc = 0 ∧ t.core.cause = 0 ∧ t.core.faddr = 0 ∧ t.core.finfo = 0 ∧ t.core.sytmo = 0 ∧
        t.core.asid = BitVec.ofNat 12 l.asid ∧ t.core.colour = BitVec.ofNat 4 l.colour ∧
        t.core.dirtyT = 0 ∧ t.core.dirtyA = 0 ∧ t.core.dirtyW = 0 ∧ t.core.limits = l.limits ∧ t.core.cycle = s.core.cycle ∧
        t.core.stash.bytes = s.core.stash.bytes ∧ t.core.stash.windows = Vector.replicate 8 none ∧ t.core.stash.ver = s.core.stash.ver + 1 ∧
        (∀ m, t.card.launchAt l.id = some m → ∀ x ∈ m.sheaves, x.index = h.index → x.phase = .running)) ∧
    (l.strands.find? (fun j => j.index == n && j.stopped) = some i → l.sheaves.find? (fun x => x.index == i.sheaf) = some h →
      i.core = some s.core.num → (∃ d, h.phase = .decided d ∧ d ≤ k.clockOf l.colour) → s.core.quiet = true → k.restitching s.core.num = false →
      ∃ t, exec (.resumptionEntry l.id n) s = .next t ∧ t.core.num = s.core.num ∧ t.core.run = .running ∧
        t.core.supervisor = true ∧ t.core.parked = .resuming ∧ t.core.pc = t.core.tvec + 832#64 ∧ t.core.epc = 0 ∧
        t.core.cause = BitVec.ofNat 64 (13 * 64 + 1) ∧ t.core.faddr = BitVec.ofNat 64 (l.word 6 + i.index * 2 ^ 20) ∧
        t.core.machineChecks = i.kept.filter (fun x => x.cls == 15) ∧ t.core.reports = (i.kept.filter fun x => x.cls != 15).take 8 ∧
        t.core.codeView = i.code)

/-- R402, R404, R409, R410, R412-R417, R421, R422, R438: the dispatchers' rounds and the ends: a round changes no core and no memory of the card;
STRAND_END_REPORT frees the core; LAUNCH_END, once every strand has ended, drops the launch's objects and unbinds its channels and queues;
COMPLETION_RECORD_WRITE writes the record and takes the launch out; the two patiences reserve, pre-empt, or end the launch with status 3; a
drained colour ends its pre-emption; a strand that the firmware ends releases at SYSTEM scope (R288), its posts go on, and its end is known. What
a round may place and when a reservation has freed are the model's choices, and so is an event that is not due (log entries 15 and 6). -/
def Obligations.DispatcherResults : Prop :=
  ∀ (s : State) (colour : Nat) (p : Partition) (l : Launch) (r : Reservation),
    let k := s.card
    let at_ (id : BitVec 16) (f : Launch → Launch) (t : Card) : Card := t.mapLaunch id f
    (k.partition colour = some p →
      let t : State := { s with card := k.round p s.peer (Config.choice s.draws) }
      let u := (t.giveUpPairs k).reportReservations k
      exec (.dispatcherRound colour) s = .next u ∧ u.core = s.core ∧ u.card.cores = k.cores ∧ u.card.hbm = k.hbm ∧ u.card.l2 = k.l2 ∧
        u.card.clusters = k.clusters ∧ u.peer.cores = s.peer.cores ∧ u.peer.hbm = s.peer.hbm ∧ u.peer.l2 = s.peer.l2) ∧
    (s.core.run = .ended → (∀ c ∈ k.colls, sameStrand c.strand s.core.strand = false) → exec .strandEndReport s = .next { s with
      core := { s.core with run := .idle }
      card := { k with ends := k.ends ++ [(s.core.strand.extractLsb' 32 16, (s.core.strand.extractLsb' 0 16).toNat)] } }) ∧
    (s.core.run ≠ .ended → exec .strandEndReport s = .next s) ∧
    (k.launchAt l.id = some l →
      (l.finished = false → l.pair = .single → (∀ i ∈ l.strands, i.ended = true) → k.hostLines = [] →
        let u := s.dropObjectsOf l
        ((∀ c ∈ k.clusters.toList, ∀ o ∈ c.objects, o.launch ≠ l.id) → u = s) ∧
        ∃ t, exec (.launchEnd l.id) s = .next t ∧ t.core = u.core ∧ t.card.hbm = u.card.hbm ∧ t.card.l2 = u.card.l2 ∧
          t.card.clusters = u.card.clusters ∧ (∀ c ∈ t.card.clusters.toList, ∀ o ∈ c.objects, o.launch ≠ l.id) ∧
          (∀ g ∈ t.card.segments, g.launch ≠ l.id) ∧ (∀ q ∈ t.card.queues, q.launch ≠ l.id) ∧
          (∀ m, t.card.launchAt l.id = some m → m.finished = true ∧ m.last = k.clockOf l.colour ∧ ∀ i ∈ m.strands, i.core = none)) ∧
      (l.finished = false → l.pair = .single → (∃ i ∈ l.strands, i.ended = false) → exec (.launchEnd l.id) s = .next s) ∧
      (l.finished = true → l.pair = .single → k.leaves (s.core :: k.cores) l.id = false → k.hostLines = [] →
        let t := s.writeCompletion l (if l.status = 0 then 1 else l.status)
        exec (.completionRecordWrite l.id) s = .next { t with card := { t.card with launches := t.card.launches.filter fun m => m.id != l.id } }) ∧
      (∀ t, l.headSince = some t → l.pair = .single → l.waiting = true → l.reservation = none → l.pat ≠ 2 ^ 32 - 1 → t + l.pat ≤ k.clockOf l.colour →
        k.partition l.colour = some p →
        (k.launches.map Launch.id).Nodup →
        let reserve (m : Launch) : Launch := { m with reservation := some ⟨k.chooseReserved p l, k.clockOf l.colour⟩ }
        let t : State := { s with card := at_ l.id reserve k }
        exec (.patienceExpiry l.id) s = .next (t.pushEvent (l.colour + 1) 3 l.colour l.id.toNat ⟨0, 0, 0#64, 0#64⟩)) ∧
      (∀ t, l.headSince = some t → k.clockOf l.colour < t + l.pat → exec (.patienceExpiry l.id) s = .next s) ∧
      (l.reservation = some r → l.pair = .single → l.waiting = true → r.since + l.pat ≤ k.clockOf l.colour → k.partition l.colour = some p →
        p.preempting = none → p.preempted = false → p.firstUp = none →
        (k.freed l.id = true → exec (.reservationExpiry l.id) s = .next s) ∧
        ((∃ c ∈ r.cores, k.occupied c = true) → k.freed l.id = false) ∧
        (k.occupantsLower l = true → k.preemptible l.colour = true → k.freed l.id = false →
          let back (m : Launch) : Launch := if m.cores.any r.cores.contains then { m with front := true } else m
          exec (.reservationExpiry l.id) s =
            .next { s with card := ({ k with launches := k.launches.map back } : Card).beginPreemption l.colour (some l.id) none none }) ∧
        (k.occupantsLower l = false ∨ k.preemptible l.colour = false → k.freed l.id = false →
          exec (.reservationExpiry l.id) s = .next { s with card := at_ l.id (fun m => m.giveUp 3) k })) ∧
      (l.pair = .reserved → k.bridge.cardZero = true → k.bridge.up = true → ∀ m, s.peer.launchAt l.id = some m → m.pair = .reserved →
        exec (.peerReservationReport l.id) s = .next { s with
          card := at_ l.id (fun m => { m with pair := .committed }) k
          peer := at_ l.id (fun m => { m with pair := .committed }) s.peer }) ∧
      (l.pair ≠ .single → k.bridge.cardZero = true → s.peer.launchAt l.id = none → l.first = none →
        exec (.peerReservationReport l.id) s = .next { s with card := at_ l.id (fun m => m.giveUp 8) k })) ∧
    (k.partition colour = some p → p.preempting.isSome = true → s.colourEmpty colour = true → p.reply = none → p.retiring = none →
      (∀ c ∈ s.core :: k.cores, p.holds c = true → c.run = .idle ∧ c.drainedOut = true) →
      ∃ t, exec (.colourDrainComplete colour) s = .next t ∧ t.core = s.core ∧
        (∀ q, t.card.partition colour = some q → q.preempting = none ∧ q.preempted = false) ∧
        (∀ m ∈ t.card.launches, m.colour = colour → ∀ i ∈ m.strands, i.core = none)) ∧
    (k.partition colour = some p → (∃ c ∈ s.core :: k.cores, p.holds c = true ∧ c.drainedOut = false) → exec (.colourDrainComplete colour) s = .next s) ∧
    (∀ t, k.partition colour = some p → p.preempting = some t → t + p.patience ≤ k.clockOf colour →
      (∀ c ∈ k.cores, c.run ≠ .running) → s.core.run = .running → s.core.colour.toNat = colour →
      exec (.preEmptionPatienceExpiry colour) s = .next { s.stopStrand with
        card := s.stopStrand.card.mapLaunch (strandLaunch s.core.strand) fun l => { l with status := max l.status 5 } }) ∧
    (let u := s.drainAll.releaseAt 3
     s.stopStrand.core.run = .idle ∧ s.stopStrand.core.posts = [] ∧ s.stopStrand.card.clusters = u.card.clusters ∧ s.stopStrand.card.hbm = u.card.hbm ∧
      s.stopStrand.card.l2 = u.card.l2 ∧ s.stopStrand.card.ends = u.card.ends ++ [(strandLaunch u.core.strand, strandIndexOf u.core.strand)] ∧
      s.stopStrand.card.flight = u.card.flight ++ u.core.posts.zipIdx.map fun q => { q.1 with number := u.card.packets + q.2 })

/-- R329-R331, R438, R444, R445: an uncorrectable error is an event of the driver, and class 15 for the strand that lost dirty bytes or an entry:
a stash loses the granule's state, a cluster cache or L2 the line, a side log the entry; corrected errors are counted, an L2 set is mapped out at
its 16th, when its dirty bytes go to HBM and its lines leave L2, and a core is retired at its 64th within 2^30 clocks, at once where no partition
owns it; scrubbing and sparing change nothing that programs see. (Which lines make up a set, that a dirty line of a page under migration stays,
where the units' numbers lie, when retirement begins, and the record of an error of L2 or HBM without a class 15 are the model's choices, log
entries 42, 15, 6 and 72.) -/
def Obligations.ErrorEventResults : Prop :=
  ∀ (s : State) (n addr kind unit set : Nat) (c : Core) (e : LogEntry) (p : Partition) (l : CacheLine) (y : Exc),
    let x (detail addr : Nat) : Exc := ⟨15, detail, BitVec.ofNat 64 addr, BitVec.ofNat 64 (n % 256)⟩
    let v := s.card.service
    let now := s.card.clocks[0]
    let recent := v.coreErrors.filter fun q => decide (now < q.2 + 2 ^ 30)
    let inSet (m : L2Line) : Prop := l2Slice m.tag = unit ∧ l2Set m.tag = set
    let served (w : Service) : State := { s with card := { s.card with service := w } }
    (s.coreAt n = some c →
      (∀ off, c.windowOff (tagAsid addr) (tagVa addr) = some off →
        let t := (s.machineEvent (some c.colour.toNat) c.strand (x 0 (tagVa addr))).setCore { c with stash := { c.stash with
          granules := c.stash.granules.filter fun g => g.1 != off / 128 } }
        ((c.stash.granule (off / 128)).dmask = 0#128 → exec (.machineCheck 0 n addr) s = .next t) ∧
        ((c.stash.granule (off / 128)).dmask ≠ 0#128 → exec (.machineCheck 0 n addr) s = .next (t.reportLoss c.strand (x 0 (tagVa addr))))) ∧
      (c.windowOff (tagAsid addr) (tagVa addr) = none → exec (.machineCheck 0 n addr) s = .next s) ∧
      (c.run = .running → exec (.machineCheck 3 n addr) s =
        .next ((s.machineEvent (some c.colour.toNat) c.strand (x 3 0)).sendMachineCheck c.strand (x 3 0))) ∧
      (c.run ≠ .running → exec (.machineCheck 3 n addr) s = .next s)) ∧
    (n < 32 → (s.clusterAt n).find addr = some l → l.dmask = 0#128 →
      let t := s.machineEvent (s.card.clusterOwner n) 0#64 (x 1 (tagVa addr))
      exec (.machineCheck 1 n addr) s = .next (t.setCluster n ((t.clusterAt n).evict addr)) ∧
        ((t.setCluster n ((t.clusterAt n).evict addr)).clusterAt n).find addr = none) ∧
    (n < 32 → (s.clusterAt n).find addr = some l → l.dmask ≠ 0#128 → l.wmask.getLsbD (coreInCluster s.core.num) = true →
      clusterOf s.core.num = some n →
      (∀ d ∈ s.card.cores, clusterOf d.num = some n → l.wmask.getLsbD (coreInCluster d.num) = false) →
      let t := s.machineEvent (s.card.clusterOwner n) s.core.strand (x 1 (tagVa addr))
      exec (.machineCheck 1 n addr) s =
        .next ((t.setCluster n ((t.clusterAt n).evict addr)).reportLoss s.core.strand (x 1 (tagVa addr)))) ∧
    ((s.clusterAt n).find addr = none → exec (.machineCheck 1 n addr) s = .next s) ∧
    (∀ log, log = s.card.sideLog n (addr / 2 ^ 32) →
      (log.entries.find? (fun e => e.seq == addr % 2 ^ 32 && e.state == .pending) = some e →
        let t : State := { s with card := s.card.loseEntry log e }
        exec (.machineCheck 2 n addr) s =
          .next ((t.machineEvent (some e.post.colour) e.post.strand (x 2 0)).reportLoss e.post.strand (x 2 0)))) ∧
    (∀ m, s.card.l2Find addr = some m → exec (.machineCheck 4 n addr) s = .next
      (let t := s.machineEvent (s.card.lineOwner addr) 0#64 (x 4 (tagVa addr))
       { t with card := { t.card with l2 := t.card.l2.filter fun k => k.tag != m.tag } })) ∧
    (s.card.l2Find addr = none → exec (.machineCheck 4 n addr) s = .next s) ∧
    exec (.machineCheck 5 n addr) s = .next (s.machineEvent (s.card.lineOwner addr) 0#64 (x 5 (tagVa addr))) ∧
    (s.core.run = .running → (s.reportLoss s.core.strand y).core = { s.core with machineChecks := s.core.machineChecks ++ [y] } ∧
      ∀ m ∈ (s.reportLoss s.core.strand y).card.launches, m.id = strandLaunch s.core.strand → 6 ≤ m.status) ∧
    (kind ≠ 9 → coreArray kind unit = false ∨ 256 ≤ unit ∨ (recent.filter fun q => q.1 == unit).length < 63 → v.mappedOut = [] →
      ∃ t, exec (.correctedError kind unit set) s = .next t ∧ t = served { v with
          corrected := t.card.service.corrected, coreErrors := if coreArray kind unit = true then recent ++ [(unit, now)] else v.coreErrors } ∧
        ∀ k, countAt t.card.service.corrected k = if k = kind then countAt v.corrected k + 1 else countAt v.corrected k) ∧
    (countAt v.setErrors (unit, set) = 15 → v.mappedOut = [] → (s.card.l2.map L2Line.tag).Nodup →
      ∃ t, exec (.correctedError 9 unit set) s = .next t ∧
        t.card.service.mappedOut = [(unit, set)] ∧ t.core = s.core ∧ t.card.cores = s.card.cores ∧
        (∀ m ∈ t.card.l2, inSet m → m.dmask ≠ 0#128) ∧
        (∀ m ∈ s.card.l2, ¬ inSet m → m ∈ t.card.l2) ∧
        ∀ m pa, m ∈ s.card.l2 → inSet m → (∀ o ∈ s.card.l2, inSet o → o = m) → m.dmask ≠ 0#128 → Memory.rising s.card.hbm = true →
          (s.card.translate (tagAsid m.tag) (s.card.lineColour m.tag) (tagVa m.tag)).map Leaf.target = some (.local pa) →
          (s.card.lockedLine m.tag = true → m ∈ t.card.l2 ∧ t.card.hbm = s.card.hbm) ∧
          (s.card.lockedLine m.tag = false → m ∉ t.card.l2 ∧
            (∀ i < 128, readByte t.card.hbm (pa + i) = if m.dmask.getLsbD i then m.data.getD i 0#8 else readByte s.card.hbm (pa + i)) ∧
            ∀ a, a < pa ∨ pa + 128 ≤ a → readByte t.card.hbm a = readByte s.card.hbm a)) ∧
    (coreArray kind unit = true → unit < 256 → (recent.filter fun q => q.1 == unit).length = 63 → s.card.coreOwner unit = some p →
      s.card.preemptible p.colour = true → p.preempting = none →
      ∃ t q, exec (.correctedError kind unit set) s = .next t ∧ t.card.partition p.colour = some q ∧
        q.preempting.isSome = true ∧ q.retiring = some unit ∧ t.core.x = s.core.x) ∧
    (coreArray kind unit = true → unit < 256 → (recent.filter fun q => q.1 == unit).length = 63 → s.card.coreOwner unit = none → v.mappedOut = [] →
      exec (.correctedError kind unit set) s = .next ((s.mapService fun v => v.correct kind unit set now).retireNow unit)) ∧
    exec .scrub s = .next s ∧
    (n ∉ v.spared → exec (.hbmChannelSparing n) s = .next (served { v with spared := v.spared ++ [n] })) ∧
    (n ∈ v.spared → exec (.hbmChannelSparing n) s = .next s)

/-- R293, R308, R366, R384, R434, R439-R443: a port takes the payload of a good flit in order for which it has a buffer and acknowledges it,
after 64 flits in a flit of its own, and naks any other; acks free the replay buffer and naks send again, until a flit has been sent again 16
times, which fails its port; requests of the peer are served at their home with the status of its own tables and answered; a store to the peer
performs when it is acknowledged, the oldest one of its port first, and one that failed is dropped; a port that fails is left out, one that
degrades keeps the domains that it has, and a bridge that was down is trained, its ordering domains and the stores under way in them as before.
(The number that a nak names, and the places of an atomic's operation and operands and of a message's handler, target, payload and sender, are
the model's choices, log entry 18.) -/
def Obligations.BridgeEventResults : Prop :=
  ∀ (s : State) (n seq : Nat) (bad room : Bool) (bytes : List Byte) (t : Transaction) (rest : List (List Byte)) (d : DrainWrite),
    let p := s.port n
    let b := s.card.bridge
    let live : Prop := p.working = true ∧ p.retraining = false ∧ n < 4
    let u := s.setPort n { p with slots := rest }
    let answers (i : Instr) (a : Transaction) (v : State) : Prop :=
      exec i s = .next (v.setPort n (({ p with slots := rest } : Port).send a))
    let serves (kind : Nat) : Prop := live ∧ b.up = true ∧ p.replay.length < 512 ∧ nextTransaction p.slots = some (t, rest) ∧ t.kind = kind
    let failed (st : Nat) : Transaction := { t with kind := 6, status := st, payload := [] }
    let again (f : Flit) : Bool := decide ((f.seq + 4096 - seq % 4096) % 4096 < 2048)
    let resent : Port := { p with
      replay := p.replay.map fun f => if again f then { f with tries := f.tries + 1 } else f
      wire := p.wire ++ (p.replay.filter again).map Flit.bytes
      replayed := p.replayed + (p.replay.filter again).length }
    let takes (q : Port) : Prop := exec (.flitReceive (n, room) bytes) s = .next ((s.takeWire n).setPort n q)
    let refused : Port := { p with outbox := ackWord true p.expected :: p.outbox.filter fun w => !isNak w }
    let naks : Port := if p.replay.length < 512 then refused.sendFlit 2 [] else refused
    let under : Prop := live ∧ b.up = true ∧ p.slots = [] ∧ b.portOf s.core.num = some n
    (live → b.up = true → (∀ f ∈ p.replay, f.tries < 16) →
      (room = true → flitOk bytes = true → flitKind bytes = 1 → flitSeq bytes = p.expected → (flitAck bytes).testBit 15 = false →
        let q : Port := { p with
          expected := (p.expected + 1) % 4096
          outbox := p.outbox.filter isNak ++ [ackWord false p.expected]
          unacked := p.unacked + 1
          slots := p.slots ++ chunks 16 ((bytes.drop 4).take 240) }
        (p.unacked < 63 → takes q) ∧ (63 ≤ p.unacked → p.replay.length < 512 → takes (q.sendFlit 2 []))) ∧
      (flitOk bytes = false → takes { naks with failed := p.failed + 1 }) ∧
      (flitOk bytes = true → flitKind bytes ≠ 0 → flitSeq bytes ≠ p.expected ∨ room = false → (flitAck bytes).testBit 15 = false →
        takes { naks with refused := p.refused + 1 }) ∧
      (flitOk bytes = true → flitKind bytes = 0 → (flitAck bytes).testBit 15 = true → (flitAck bytes).testBit 14 = false →
        takes { p with replay := p.replay.filter fun f => decide (2048 ≤ (flitAck bytes % 2 ^ 12 + 4096 - f.seq % 4096) % 4096) })) ∧
    (∀ kind k slots, kind < 3 → k < 4096 →
      flitOk (makeFlit kind k 0 slots) = true ∧ flitKind (makeFlit kind k 0 slots) = kind ∧ flitSeq (makeFlit kind k 0 slots) = k) ∧
    (live → ∃ q, exec (.ackReceive n seq) s = .next (s.setPort n q) ∧
      ∀ f, f ∈ q.replay ↔ f ∈ p.replay ∧ 2048 ≤ (seq + 4096 - f.seq % 4096) % 4096) ∧
    (live → (∀ f ∈ p.replay, f.tries < 15) → exec (.nakReceive n seq) s = .next (s.setPort n resent)) ∧
    (live → (∃ f ∈ p.replay, again f = true ∧ 15 ≤ f.tries) → exec (.nakReceive n seq) s = .next ((s.setPort n resent).failPort n)) ∧
    (p.working = true → (∃ m, m < 4 ∧ m ≠ n ∧ (s.port m).working = true) → (∃ q ∈ s.peer.bridge.ports.toList, q.working = true) →
      exec (.portFailure n) s = .next (s.setPort n { p with
        working := false, retraining := false, replay := [], wire := [], slots := [], outbox := [], unacked := 0 })) ∧
    (live → p.lanes = 8 → ∃ v, v = s.setPort n { p with retraining := true, degrades := p.degrades + 1 } ∧ exec (.portDegrade n) s = .next v ∧
      ∀ k, (b.domains.find? (fun d => d.1 == k) = some (k, n) → v.card.bridge.portOf k = some n) ∧
        (b.domains.find? (fun d => d.1 == k) = none → v.card.bridge.portOf k ≠ some n)) ∧
    (p.working = true → p.retraining = true → exec (.portRetrainComplete n) s = .next (s.setPort n { p with retraining := false, lanes := 4 })) ∧
    (b.up = false →
      ∃ v, exec .bridgeTraining s = .next v ∧ v.core = s.core ∧ v.card.bridge.up = true ∧ v.peer.bridge.up = true ∧
      v.card.bridge.cardZero = decide (s.card.serial < s.peer.serial) ∧ v.peer.bridge.cardZero = !decide (s.card.serial < s.peer.serial) ∧
      v.card.tagCounts = Vector.replicate 16 0 ∧ v.card.bridge.domains = b.domains ∧
      (v.card.bridge.up = true → ∀ k ∈ [v.card, v.peer], ∀ l ∈ k.sideLogs, l.replaying = false) ∧ v.card.hbm = s.card.hbm ∧ v.card.l2 = s.card.l2) ∧
    (serves 1 → s.peerStatus .load t 1 = 0 →
      let line := t.va / 128 * 128
      answers (.bridgeRead (n, false)) { t with kind := 6, status := 0, payload := s.homeBytes t.asid t.colour line 128 }
        (u.unitRead none t.asid t.colour line 128) ∧
      answers (.bridgeRead (n, true)) (failed 3) u) ∧
    (serves 1 → s.peerStatus .load t 1 ≠ 0 → answers (.bridgeRead (n, bad)) (failed (s.peerStatus .load t 1)) (u.countRefused t)) ∧
    (serves 2 → s.card.hostLines = [] → s.peerStatus .store t t.payload.length = 0 →
      answers (.bridgeWrite n) { t with kind := 7, status := 0, payload := [] } (u.writeHomeBytes t.asid t.colour t.va t.payload)) ∧
    (serves 2 → s.peerStatus .store t t.payload.length ≠ 0 → answers (.bridgeWrite n) (failed (s.peerStatus .store t t.payload.length)) (u.countRefused t)) ∧
    (serves 3 → ∀ k, k = (if t.op.testBit 4 then 8 else 4) →
      (s.peerStatus .atomic t k ≠ 0 → answers (.bridgeAtomic (n, bad)) (failed (s.peerStatus .atomic t k)) (u.countRefused t)) ∧
      (s.peerStatus .atomic t k = 0 → 32 ≤ t.op → answers (.bridgeAtomic (n, bad)) (failed 4) u) ∧
      (s.peerStatus .atomic t k = 0 → t.op < 32 → answers (.bridgeAtomic (n, true)) (failed 3) u) ∧
      (s.peerStatus .atomic t k = 0 → t.op < 32 → s.card.hostLines = [] →
        let old := ofBytes (s.homeBytes t.asid t.colour t.va k)
        let r := u.unitRead none t.asid t.colour t.va k
        answers (.bridgeAtomic (n, false)) { t with kind := 6, status := 0, payload := toBytes 16 old }
          (match atomicNew (8 * k) (t.op % 8) (t.op.testBit 3) (flitField t.payload 8 8) old (flitField t.payload 0 8 % 2 ^ (8 * k)) with
            | some v => r.writeHomeBytes t.asid t.colour t.va (toBytes k v)
            | none => r))) ∧
    (serves 4 → t.payload.length = 80 → ∃ m, m.payload = (t.payload.drop 16).take 48 ∧ m.handler = BitVec.ofNat 64 (flitField t.payload 0 8) ∧
      m.target = BitVec.ofNat 64 (flitField t.payload 8 8) ∧ m.sender = BitVec.ofNat 64 (flitField t.payload 64 8) ∧
      answers (.bridgeMessage n) { t with kind := 7, status := 0, payload := [] }
        { u with card := { u.card with messages := u.card.messages ++ [(m, t.colour)] } }) ∧
    (serves 5 → answers (.bridgeCollective n) { t with kind := 7, status := 0, payload := [] } u) ∧
    (serves 6 → t.status = 0 → exec (.bridgeCompletion n) s = .next u) ∧
    (s.drainSent = some d → s.core.apertureAt (tagVa d.tag) = none → d.target = .peer →
      (serves 6 → t.status ≠ 0 → t.tag = s.core.num → ∀ w, w = ((u.dropPeerStore (lineTag d.tag)).closeDomain).passUpdates →
        exec (.bridgeCompletion n) s = .next { w with core := w.core.popDrain }) ∧
      (under → b.oldestOn n ≠ some s.core.num → exec (.bridgeAcknowledgement (n, s.core.num)) s = .next s) ∧
      (under → b.oldestOn n = some s.core.num → s.peer.hostLines = [] →
        let asid := tagAsid d.tag
        let colour := s.core.colour.toNat
        let w := ((match s.peerAccess .store asid colour (tagVa d.tag) with
          | none => s.storeBytes d.tag .peer d.bytes
          | some x => (s.countAbsent asid colour 3 x (tagVa d.tag)).dropPeerStore (lineTag d.tag)).closeDomain).passUpdates
        exec (.bridgeAcknowledgement (n, s.core.num)) s = .next { w with core := w.core.popDrain }))

/-- R6, R23, R447, R448: power samples, gating and the power states; package reset gives every register its reset value, core reset those of an
idle core; the SPDM answers name version 1.3, Falcon-1024 and SHAKE256. (That reset keeps HBM below the firmware's granules, how many clocks the
engines pace, that D3hot needs an empty card, and the bytes of certificates and digests, are the model's choices, log entries 25, 27 and 17.) -/
def Obligations.PowerResetAttestationResults : Prop :=
  ∀ (s : State) (n off len : Nat) (nonce : List Byte) (c : Core),
    let w := s.card.power
    let now := s.card.clocks[0]
    let power (p : Power) : State := { s with card := { s.card with power := p } }
    let empty : Prop := ∀ l ∈ s.card.launches, ∀ i ∈ l.strands, i.core = none
    let tells (i : Instr) (m : SpdmMessage) : Prop := exec i s = .next { s with card := { s.card with spdm := s.card.spdm ++ [m] } }
    (∃ paced, (w.above = false → paced = 0) ∧ paced ≤ 2 ^ 16 ∧
      exec (.powerSample n) s = .next { s with card := { s.card with
        power := { w with
          above := decide (min Config.cardLimit 800 < n), below := if 100 * n < 95 * min Config.cardLimit 800 then w.below + 1 else 0 }
        service := { s.card.service with pacedClocks := s.card.service.pacedClocks + paced } } }) ∧
    (n < 32 → (∀ i < 256, clusterOf i = some n → s.card.occupied i = false) →
      exec (.clusterGate n) s = .next (power { w with gated := w.gated ||| (1#32 <<< n) })) ∧
    (n < 32 → (∃ i < 256, clusterOf i = some n ∧ s.card.occupied i = true) → exec (.clusterGate n) s = .next s) ∧
    (empty → w.state = .active → w.lastUse + 2 ^ 24 ≤ now → exec .idleTimeout s = .next (power { w with state := .sleeping, gated := 0xFFFFFFFF#32 })) ∧
    (now < w.lastUse + 2 ^ 24 → exec .idleTimeout s = .next s) ∧
    exec .wake s = .next (power { w with state := .active, lastUse := now }) ∧
    (empty → exec .d3hot s = .next (power { w with state := .d3hot, gated := 0xFFFFFFFF#32 })) ∧
    ((∀ d ∈ s.peer.cores, d.sent = false) → exec .packageReset s = .next { s with
      core := Core.reset s.core.num s.core.kind
      card := { Card.reset s.card.serial (coresReset.filter fun c => c.num != s.core.num) with
        hbm := s.card.hbm.filter fun b => decide (b.1 < firmwareGranule * 65536) }
      peer := { s.peer with bridge := { s.peer.bridge with up := false } } }) ∧
    (s.coreAt n = some c → (c.run = .idle → exec (.coreReset n) s = .next (s.setCore (Core.reset c.num c.kind))) ∧
      (c.run ≠ .idle → exec (.coreReset n) s = .next s)) ∧
    tells .getVersion (.version 0x13) ∧ tells .getCapabilities .capabilities ∧ tells .negotiateAlgorithms (.algorithms "Falcon-1024" "SHAKE256") ∧
    (∃ bs, tells .getDigests (.digests bs)) ∧
    (∃ bs, bs.length = len ∧ tells (.getCertificate off len) (.certificate bs)) ∧
    (∃ bs, tells (.challenge nonce) (.challengeAuth nonce bs)) ∧
    (∃ d u, d.length = 64 ∧ u.length = 64 ∧ ∃ t, tells .getMeasurements
      (.measurements [d, u, toBytes 8 s.card.firmware.version, toBytes 8 Config.rollbackCount, t]))

/-- R59-R64, R73, R150, R316, R341, R353, R434, R471: with no turn ahead in the agenda, no cause to take and no handler's action, a step at a
fetchable line with good parity decodes the slot of the PC and is exec of the instruction, from the state in which the line and the one that it
makes the front end request have been delivered; one that waits is fetched again after a turn of the work under way; one that has read early
retires with what it read, and one behind which others have read early leaves them one place further ahead (log entry 40); what would merge at L2
into a line that a host may hold is not done, and BISnp goes out (log entry 35); then time passes (log entries 2, 3 and 7). A fetch that fails is
the entry of its fault. R32, R308, R316, R434, log entry 3: a step takes a pending cause before an instruction; a strand that is parked outside
its handler does nothing; a step whose agenda begins with an event of the table is exec of the event, one that begins with a store of the host
writes host memory, one that names another core or the other card moves the focus, and an idle core does nothing; time passes with each. -/
def Obligations.StepRunsDecoded : Prop :=
  (∀ (s : State) (i : Instr),
    let line := (lineOf s.core.pc).toNat
    let d := s.deliver line
    let lw := lineWord d.2
    let slot := pcOffset s.core.pc / 12
    let u := d.1.prefetch line slot d.2
    let becomes (t : State) : Prop := step s = .next (t.tick (Config.elapsed s.draws))
    let settles (b t : State) : Prop := becomes (b.orHeld t fun w => if b.card.snoops = [] then w else w.background)
    let first (v : State) : Option Early := v.core.early.find? fun e => e.after == 0
    let runs (b v : State) : Prop :=
      (v.core.early = [] → (∀ t, exec i v = .next t → settles b t) ∧ (∀ f, exec i v = .fault f → step s = .fault f) ∧
        ∀ f, exec i v = .refused f → step s = .refused f) ∧
      (v.core.early ≠ [] → first v = none ∨ (∃ e, first v = some e ∧ e.done = false) → ∀ t, exec i v = .next t → settles b t.age) ∧
      ∀ e, first v = some e → e.done = true → settles b (v.takeEarly e).age
    s.agenda = [] → s.core.run = .running → s.asyncCause = none → (s.core.parked = .free ∨ s.core.supervisor = true) →
      (s.core.waiting = none → s.core.fw = [] → validPc s.core.pc = true → s.fetchFault s.core.pc 0#64 = none → s.lineLost line = false →
        lparOk lw = true → sparOk d.2 slot = true → lw.extractLsb' 9 7 = 0#7 → lw.extractLsb' 22 10 = 0#10 →
        decode (slotOf d.2 slot) = .ok i → runs s u) ∧
      (s.core.waiting ≠ none → s.background.asyncCause = none → s.background.core.fw = [] →
        ∀ v, s.background.fetch = .ok (v, i) → runs s.background v) ∧
      (s.core.waiting = none → s.core.fw = [] → ∀ x, s.fetch = .error x → settles s (s.enter x))) ∧
  (∀ (s : State) (rest : List Turn),
    let u : State := { s with agenda := rest }
    let becomes (t : State) : Prop := step s = .next (t.tick (Config.elapsed s.draws))
    (∀ i, s.agenda = .event i :: rest → encode i = none → ∀ t, exec i u = .next t →
      becomes (if clearsHostBits i then t else u.orHeld t id)) ∧
    (∀ i w, s.agenda = .event i :: rest → encode i = some w → becomes u) ∧
    (∀ a bs, s.agenda = .hostStore a bs :: rest → becomes { u with host := { u.host with mem := writeBytes u.host.mem (a % 2 ^ 46) bs } }) ∧
    (∀ n, s.agenda = .focusCore n :: rest → becomes (u.focus n)) ∧
    (s.agenda = .swapCards :: rest → becomes u.flip) ∧
    (s.agenda = [] → s.core.run ≠ .running → becomes s) ∧
    (s.agenda = [] → s.core.run = .running → s.asyncCause.isSome = true →
      becomes (s.orHeld s.takeAsync fun w => if s.card.snoops = [] then w else w.background)) ∧
    (s.agenda = [] → s.core.run = .running → s.asyncCause = none → s.core.parked ≠ .free → s.core.supervisor = false → becomes s))

/-- R66-R81: words that the spec's worked encodings give, one or more of every family, decode to the instructions that they stand for. -/
def Obligations.DecodesSpecWords : Prop :=
  let word (a b c : BitVec 32) : InstrWord := a ++ b ++ c
  decode (word 0x20145000 0 1) = .ok (.addi 5#6 5#6 1#64) ∧
  decode (word 0x460C0000 0 0) = .ok (.loop 3#6 0#3 0#64) ∧
  decode (word 0x4724A210 0 0) = .ok (.cmpsk 9#6 10#6 2#4 2#2) ∧
  decode (word 0x54184140 0x000B0000 0) = .ok (.aadd 6#6 4#6 5#6 3#2 2#2 false false) ∧
  decode (word 0x60191945 0x80000000 0x100) = .ok (.tld 3#5 1#3 3#5 10#6 11#6 0#6 0#4 0x100#32) ∧
  decode (word 0x72018006 0x80000080 0) = .ok (.mmat 3#3 1#2 6#5 false true) ∧
  decode (word 0x74380004 0x32200A00 0) = .ok (.mdrain 7#5 2#3 3#3 4#5 4#4 0#32 1#2 false true) ∧
  decode (word 0x80188200 0x20 0) = .ok (.vadd 3#5 2#5 1#5 0#6 2#3 0#2 false) ∧
  decode (word 0x8B208000 0x54012012 0) = .ok (.vcmp 4#5 2#5 0#5 9#6 1#3 5#3 8#5 2#4) ∧
  decode (word 0x90314000 0x22980A00 0) = .ok (.vcvt 6#5 5#5 0#5 0#5 2#3 5#5 3#4 1#2 false true) ∧
  decode (word 0xA020C000 0x21000000 0) = .ok (.vrsum 4#5 3#5 2#3 2#5 0#2 false) ∧
  decode (word 0xB3004000 0x38480010 2) = .ok (.skqry 7#5 4#6 0#6 9#5 1#4 2#3) ∧
  decode (word 0xC0005000 0x1810000A 1) = .ok (.gqpush 5#6 3#5 2#8 1#32 true 2#2) ∧
  decode (word 0xC71C0000 0x00180000 0) = .ok (.cpygo 7#6 3#8) ∧
  decode (word 0xD0284140 0 0) = .ok (.lkred 10#6 4#6 5#6 0#8) ∧
  decode (word 0xE4187008 0x0088006C 0) = .ok (.syred 6#6 7#6 8#6 0x11#8 6#4 false true true) ∧
  decode (word 0xEC000000 0 0x301) = .ok (.qfence 0x301#32) ∧
  decode (word 0x02000000 0 0x1234) = .ok (.trap 0x1234#64) ∧
  decode (word 0x06007000 0x00110000 0) = .ok (.mtsSeed 7#6) ∧
  decode (word 0xFF000000 0 0) = .error .illegalOpcode

/-- R19, R23, R24, R404: after reset every register has its reset value, no strand runs, and memory lists nothing. (The registers whose value the
spec ties to a launch read 0 then, log entry 4.) -/
def Obligations.ResetValues : Prop :=
  let c := State.reset.core
  (∀ r, c.xr r = 0#64) ∧ (∀ r, c.tr r = Tile.empty) ∧ (∀ r, c.ar r = Acc.zero) ∧ (∀ r, c.wr r = ⟨Tile.empty, Tile.empty⟩) ∧
  (∀ r, c.hr r = BitVec.ofNat 64 (64 + 128 * 2 ^ 7)) ∧ (∀ r, c.qr r = 0x3F800000#64) ∧ c.cycle = 0 ∧ c.cause = 0 ∧ c.faddr = 0 ∧ c.finfo = 0 ∧
  c.epc = 0 ∧ c.sytmo = 0 ∧ c.dirtyT = 0 ∧ c.dirtyA = 0 ∧ c.dirtyW = 0 ∧ c.copies = Vector.replicate 8 CopyChannel.reset ∧
  State.reset.card.cores.length = 287 ∧ State.reset.peer.cores.length = 288 ∧
  (∀ d ∈ c :: (State.reset.card.cores ++ State.reset.peer.cores), d.run = .idle ∧ d.drain = [] ∧ d.posts = [] ∧ d.early = []) ∧
  State.reset.card.hbm = [] ∧ State.reset.card.l2 = [] ∧ State.reset.host.mem = [] ∧ State.reset.memoryForm ∧
  State.reset.card.launches = [] ∧ State.reset.card.partitions = [] ∧ State.reset.card.bridge.up = false

/-- R66, R73: a well-formed instruction that has a word decodes from it, with every operand. -/
def Obligations.DecodeEncode : Prop :=
  ∀ (i : Instr) (w : InstrWord), wellFormed i = true → encode i = some w → decode w = .ok i

/-- R72, R73: what decodes is well formed, and its word is the one it was decoded from, so no two words decode to one instruction. -/
def Obligations.EncodeDecode : Prop :=
  ∀ (i : Instr) (w : InstrWord), decode w = .ok i → wellFormed i = true ∧ encode i = some w

/-- Log entry 5 (the form of a memory is the model's): every step keeps every memory in its canonical form, so that equal memories are equal
data. -/
def Obligations.MemoryFormKept : Prop :=
  ∀ (s t : State), s.memoryForm → step s = .next t → t.memoryForm
end

