-- ==== Sys2Proof/Laws/State.lean ====
section
/-! SUPPORT. What each update of a core or of the machine does to each field. -/

namespace Sys2Proof.Machine

@[simp] theorem Core.setX_num (c : Core) (r : BitVec 6) (v : Word) : (c.setX r v).num = c.num := by unfold Core.setX; split <;> rfl
@[simp] theorem Core.setX_kind (c : Core) (r : BitVec 6) (v : Word) : (c.setX r v).kind = c.kind := by unfold Core.setX; split <;> rfl
@[simp] theorem Core.setX_run (c : Core) (r : BitVec 6) (v : Word) : (c.setX r v).run = c.run := by unfold Core.setX; split <;> rfl
@[simp] theorem Core.setX_limits (c : Core) (r : BitVec 6) (v : Word) : (c.setX r v).limits = c.limits := by unfold Core.setX; split <;> rfl
@[simp] theorem Core.setX_pc (c : Core) (r : BitVec 6) (v : Word) : (c.setX r v).pc = c.pc := by unfold Core.setX; split <;> rfl
@[simp] theorem Core.setX_t (c : Core) (r : BitVec 6) (v : Word) : (c.setX r v).t = c.t := by unfold Core.setX; split <;> rfl
@[simp] theorem Core.setX_a (c : Core) (r : BitVec 6) (v : Word) : (c.setX r v).a = c.a := by unfold Core.setX; split <;> rfl
@[simp] theorem Core.setX_w (c : Core) (r : BitVec 6) (v : Word) : (c.setX r v).w = c.w := by unfold Core.setX; split <;> rfl
@[simp] theorem Core.setX_h (c : Core) (r : BitVec 6) (v : Word) : (c.setX r v).h = c.h := by unfold Core.setX; split <;> rfl
@[simp] theorem Core.setX_q (c : Core) (r : BitVec 6) (v : Word) : (c.setX r v).q = c.q := by unfold Core.setX; split <;> rfl
@[simp] theorem Core.setX_cycle (c : Core) (r : BitVec 6) (v : Word) : (c.setX r v).cycle = c.cycle := by unfold Core.setX; split <;> rfl
@[simp] theorem Core.setX_strand (c : Core) (r : BitVec 6) (v : Word) : (c.setX r v).strand = c.strand := by unfold Core.setX; split <;> rfl
@[simp] theorem Core.setX_lvl (c : Core) (r : BitVec 6) (v : Word) : (c.setX r v).lvl = c.lvl := by unfold Core.setX; split <;> rfl
@[simp] theorem Core.setX_ps (c : Core) (r : BitVec 6) (v : Word) : (c.setX r v).ps = c.ps := by unfold Core.setX; split <;> rfl
@[simp] theorem Core.setX_seed (c : Core) (r : BitVec 6) (v : Word) : (c.setX r v).seed = c.seed := by unfold Core.setX; split <;> rfl
@[simp] theorem Core.setX_serial (c : Core) (r : BitVec 6) (v : Word) : (c.setX r v).serial = c.serial := by unfold Core.setX; split <;> rfl
@[simp] theorem Core.setX_tvec (c : Core) (r : BitVec 6) (v : Word) : (c.setX r v).tvec = c.tvec := by unfold Core.setX; split <;> rfl
@[simp] theorem Core.setX_epc (c : Core) (r : BitVec 6) (v : Word) : (c.setX r v).epc = c.epc := by unfold Core.setX; split <;> rfl
@[simp] theorem Core.setX_cause (c : Core) (r : BitVec 6) (v : Word) : (c.setX r v).cause = c.cause := by unfold Core.setX; split <;> rfl
@[simp] theorem Core.setX_faddr (c : Core) (r : BitVec 6) (v : Word) : (c.setX r v).faddr = c.faddr := by unfold Core.setX; split <;> rfl
@[simp] theorem Core.setX_finfo (c : Core) (r : BitVec 6) (v : Word) : (c.setX r v).finfo = c.finfo := by unfold Core.setX; split <;> rfl
@[simp] theorem Core.setX_sytmo (c : Core) (r : BitVec 6) (v : Word) : (c.setX r v).sytmo = c.sytmo := by unfold Core.setX; split <;> rfl
@[simp] theorem Core.setX_asid (c : Core) (r : BitVec 6) (v : Word) : (c.setX r v).asid = c.asid := by unfold Core.setX; split <;> rfl
@[simp] theorem Core.setX_colour (c : Core) (r : BitVec 6) (v : Word) : (c.setX r v).colour = c.colour := by unfold Core.setX; split <;> rfl
@[simp] theorem Core.setX_dirtyT (c : Core) (r : BitVec 6) (v : Word) : (c.setX r v).dirtyT = c.dirtyT := by unfold Core.setX; split <;> rfl
@[simp] theorem Core.setX_dirtyA (c : Core) (r : BitVec 6) (v : Word) : (c.setX r v).dirtyA = c.dirtyA := by unfold Core.setX; split <;> rfl
@[simp] theorem Core.setX_dirtyW (c : Core) (r : BitVec 6) (v : Word) : (c.setX r v).dirtyW = c.dirtyW := by unfold Core.setX; split <;> rfl
@[simp] theorem Core.setX_scr (c : Core) (r : BitVec 6) (v : Word) : (c.setX r v).scr = c.scr := by unfold Core.setX; split <;> rfl
@[simp] theorem Core.setX_stash (c : Core) (r : BitVec 6) (v : Word) : (c.setX r v).stash = c.stash := by unfold Core.setX; split <;> rfl
@[simp] theorem Core.setX_drain (c : Core) (r : BitVec 6) (v : Word) : (c.setX r v).drain = c.drain := by unfold Core.setX; split <;> rfl
@[simp] theorem Core.setX_sent (c : Core) (r : BitVec 6) (v : Word) : (c.setX r v).sent = c.sent := by unfold Core.setX; split <;> rfl
@[simp] theorem Core.setX_lineBuffer (c : Core) (r : BitVec 6) (v : Word) : (c.setX r v).lineBuffer = c.lineBuffer := by unfold Core.setX; split <;> rfl
@[simp] theorem Core.setX_codeView (c : Core) (r : BitVec 6) (v : Word) : (c.setX r v).codeView = c.codeView := by unfold Core.setX; split <;> rfl
@[simp] theorem Core.setX_tlb (c : Core) (r : BitVec 6) (v : Word) : (c.setX r v).tlb = c.tlb := by unfold Core.setX; split <;> rfl
@[simp] theorem Core.setX_icache (c : Core) (r : BitVec 6) (v : Word) : (c.setX r v).icache = c.icache := by unfold Core.setX; split <;> rfl
@[simp] theorem Core.setX_posts (c : Core) (r : BitVec 6) (v : Word) : (c.setX r v).posts = c.posts := by unfold Core.setX; split <;> rfl
@[simp] theorem Core.setX_copies (c : Core) (r : BitVec 6) (v : Word) : (c.setX r v).copies = c.copies := by unfold Core.setX; split <;> rfl
@[simp] theorem Core.setX_copyTurn (c : Core) (r : BitVec 6) (v : Word) : (c.setX r v).copyTurn = c.copyTurn := by unfold Core.setX; split <;> rfl
@[simp] theorem Core.setX_linkSeq (c : Core) (r : BitVec 6) (v : Word) : (c.setX r v).linkSeq = c.linkSeq := by unfold Core.setX; split <;> rfl
@[simp] theorem Core.setX_windowCounts (c : Core) (r : BitVec 6) (v : Word) : (c.setX r v).windowCounts = c.windowCounts := by unfold Core.setX; split <;> rfl
@[simp] theorem Core.setX_inbox (c : Core) (r : BitVec 6) (v : Word) : (c.setX r v).inbox = c.inbox := by unfold Core.setX; split <;> rfl
@[simp] theorem Core.setX_unaccepted (c : Core) (r : BitVec 6) (v : Word) : (c.setX r v).unaccepted = c.unaccepted := by unfold Core.setX; split <;> rfl
@[simp] theorem Core.setX_held (c : Core) (r : BitVec 6) (v : Word) : (c.setX r v).held = c.held := by unfold Core.setX; split <;> rfl
@[simp] theorem Core.setX_waitFrom (c : Core) (r : BitVec 6) (v : Word) : (c.setX r v).waitFrom = c.waitFrom := by unfold Core.setX; split <;> rfl
@[simp] theorem Core.setX_waiting (c : Core) (r : BitVec 6) (v : Word) : (c.setX r v).waiting = c.waiting := by unfold Core.setX; split <;> rfl
@[simp] theorem Core.setX_parked (c : Core) (r : BitVec 6) (v : Word) : (c.setX r v).parked = c.parked := by unfold Core.setX; split <;> rfl
@[simp] theorem Core.setX_reports (c : Core) (r : BitVec 6) (v : Word) : (c.setX r v).reports = c.reports := by unfold Core.setX; split <;> rfl
@[simp] theorem Core.setX_preempt (c : Core) (r : BitVec 6) (v : Word) : (c.setX r v).preempt = c.preempt := by unfold Core.setX; split <;> rfl
@[simp] theorem Core.setX_machineChecks (c : Core) (r : BitVec 6) (v : Word) : (c.setX r v).machineChecks = c.machineChecks := by unfold Core.setX; split <;> rfl
@[simp] theorem Core.setX_imageAddr (c : Core) (r : BitVec 6) (v : Word) : (c.setX r v).imageAddr = c.imageAddr := by unfold Core.setX; split <;> rfl
@[simp] theorem Core.setX_dfltTable (c : Core) (r : BitVec 6) (v : Word) : (c.setX r v).dfltTable = c.dfltTable := by unfold Core.setX; split <;> rfl
@[simp] theorem Core.setX_fw (c : Core) (r : BitVec 6) (v : Word) : (c.setX r v).fw = c.fw := by unfold Core.setX; split <;> rfl
@[simp] theorem Core.setX_early (c : Core) (r : BitVec 6) (v : Word) : (c.setX r v).early = c.early := by unfold Core.setX; split <;> rfl
@[simp] theorem Core.setX_passed (c : Core) (r : BitVec 6) (v : Word) : (c.setX r v).passed = c.passed := by unfold Core.setX; split <;> rfl

@[simp] theorem Core.setT_num (c : Core) (r : BitVec 5) (v : Tile) : (c.setT r v).num = c.num := rfl
@[simp] theorem Core.setT_kind (c : Core) (r : BitVec 5) (v : Tile) : (c.setT r v).kind = c.kind := rfl
@[simp] theorem Core.setT_run (c : Core) (r : BitVec 5) (v : Tile) : (c.setT r v).run = c.run := rfl
@[simp] theorem Core.setT_limits (c : Core) (r : BitVec 5) (v : Tile) : (c.setT r v).limits = c.limits := rfl
@[simp] theorem Core.setT_pc (c : Core) (r : BitVec 5) (v : Tile) : (c.setT r v).pc = c.pc := rfl
@[simp] theorem Core.setT_x (c : Core) (r : BitVec 5) (v : Tile) : (c.setT r v).x = c.x := rfl
@[simp] theorem Core.setT_t (c : Core) (r : BitVec 5) (v : Tile) : (c.setT r v).t = c.t.set r.toNat v := rfl
@[simp] theorem Core.setT_a (c : Core) (r : BitVec 5) (v : Tile) : (c.setT r v).a = c.a := rfl
@[simp] theorem Core.setT_w (c : Core) (r : BitVec 5) (v : Tile) : (c.setT r v).w = c.w := rfl
@[simp] theorem Core.setT_h (c : Core) (r : BitVec 5) (v : Tile) : (c.setT r v).h = c.h := rfl
@[simp] theorem Core.setT_q (c : Core) (r : BitVec 5) (v : Tile) : (c.setT r v).q = c.q := rfl
@[simp] theorem Core.setT_cycle (c : Core) (r : BitVec 5) (v : Tile) : (c.setT r v).cycle = c.cycle := rfl
@[simp] theorem Core.setT_strand (c : Core) (r : BitVec 5) (v : Tile) : (c.setT r v).strand = c.strand := rfl
@[simp] theorem Core.setT_lvl (c : Core) (r : BitVec 5) (v : Tile) : (c.setT r v).lvl = c.lvl := rfl
@[simp] theorem Core.setT_ps (c : Core) (r : BitVec 5) (v : Tile) : (c.setT r v).ps = c.ps := rfl
@[simp] theorem Core.setT_seed (c : Core) (r : BitVec 5) (v : Tile) : (c.setT r v).seed = c.seed := rfl
@[simp] theorem Core.setT_serial (c : Core) (r : BitVec 5) (v : Tile) : (c.setT r v).serial = c.serial := rfl
@[simp] theorem Core.setT_tvec (c : Core) (r : BitVec 5) (v : Tile) : (c.setT r v).tvec = c.tvec := rfl
@[simp] theorem Core.setT_epc (c : Core) (r : BitVec 5) (v : Tile) : (c.setT r v).epc = c.epc := rfl
@[simp] theorem Core.setT_cause (c : Core) (r : BitVec 5) (v : Tile) : (c.setT r v).cause = c.cause := rfl
@[simp] theorem Core.setT_faddr (c : Core) (r : BitVec 5) (v : Tile) : (c.setT r v).faddr = c.faddr := rfl
@[simp] theorem Core.setT_finfo (c : Core) (r : BitVec 5) (v : Tile) : (c.setT r v).finfo = c.finfo := rfl
@[simp] theorem Core.setT_sytmo (c : Core) (r : BitVec 5) (v : Tile) : (c.setT r v).sytmo = c.sytmo := rfl
@[simp] theorem Core.setT_asid (c : Core) (r : BitVec 5) (v : Tile) : (c.setT r v).asid = c.asid := rfl
@[simp] theorem Core.setT_colour (c : Core) (r : BitVec 5) (v : Tile) : (c.setT r v).colour = c.colour := rfl
@[simp] theorem Core.setT_dirtyT (c : Core) (r : BitVec 5) (v : Tile) : (c.setT r v).dirtyT = c.dirtyT ||| 1#32 <<< r.toNat := rfl
@[simp] theorem Core.setT_dirtyA (c : Core) (r : BitVec 5) (v : Tile) : (c.setT r v).dirtyA = c.dirtyA := rfl
@[simp] theorem Core.setT_dirtyW (c : Core) (r : BitVec 5) (v : Tile) : (c.setT r v).dirtyW = c.dirtyW := rfl
@[simp] theorem Core.setT_scr (c : Core) (r : BitVec 5) (v : Tile) : (c.setT r v).scr = c.scr := rfl
@[simp] theorem Core.setT_stash (c : Core) (r : BitVec 5) (v : Tile) : (c.setT r v).stash = c.stash := rfl
@[simp] theorem Core.setT_drain (c : Core) (r : BitVec 5) (v : Tile) : (c.setT r v).drain = c.drain := rfl
@[simp] theorem Core.setT_sent (c : Core) (r : BitVec 5) (v : Tile) : (c.setT r v).sent = c.sent := rfl
@[simp] theorem Core.setT_lineBuffer (c : Core) (r : BitVec 5) (v : Tile) : (c.setT r v).lineBuffer = c.lineBuffer := rfl
@[simp] theorem Core.setT_codeView (c : Core) (r : BitVec 5) (v : Tile) : (c.setT r v).codeView = c.codeView := rfl
@[simp] theorem Core.setT_tlb (c : Core) (r : BitVec 5) (v : Tile) : (c.setT r v).tlb = c.tlb := rfl
@[simp] theorem Core.setT_icache (c : Core) (r : BitVec 5) (v : Tile) : (c.setT r v).icache = c.icache := rfl
@[simp] theorem Core.setT_posts (c : Core) (r : BitVec 5) (v : Tile) : (c.setT r v).posts = c.posts := rfl
@[simp] theorem Core.setT_copies (c : Core) (r : BitVec 5) (v : Tile) : (c.setT r v).copies = c.copies := rfl
@[simp] theorem Core.setT_copyTurn (c : Core) (r : BitVec 5) (v : Tile) : (c.setT r v).copyTurn = c.copyTurn := rfl
@[simp] theorem Core.setT_linkSeq (c : Core) (r : BitVec 5) (v : Tile) : (c.setT r v).linkSeq = c.linkSeq := rfl
@[simp] theorem Core.setT_windowCounts (c : Core) (r : BitVec 5) (v : Tile) : (c.setT r v).windowCounts = c.windowCounts := rfl
@[simp] theorem Core.setT_inbox (c : Core) (r : BitVec 5) (v : Tile) : (c.setT r v).inbox = c.inbox := rfl
@[simp] theorem Core.setT_unaccepted (c : Core) (r : BitVec 5) (v : Tile) : (c.setT r v).unaccepted = c.unaccepted := rfl
@[simp] theorem Core.setT_held (c : Core) (r : BitVec 5) (v : Tile) : (c.setT r v).held = c.held := rfl
@[simp] theorem Core.setT_waitFrom (c : Core) (r : BitVec 5) (v : Tile) : (c.setT r v).waitFrom = c.waitFrom := rfl
@[simp] theorem Core.setT_waiting (c : Core) (r : BitVec 5) (v : Tile) : (c.setT r v).waiting = c.waiting := rfl
@[simp] theorem Core.setT_parked (c : Core) (r : BitVec 5) (v : Tile) : (c.setT r v).parked = c.parked := rfl
@[simp] theorem Core.setT_reports (c : Core) (r : BitVec 5) (v : Tile) : (c.setT r v).reports = c.reports := rfl
@[simp] theorem Core.setT_preempt (c : Core) (r : BitVec 5) (v : Tile) : (c.setT r v).preempt = c.preempt := rfl
@[simp] theorem Core.setT_machineChecks (c : Core) (r : BitVec 5) (v : Tile) : (c.setT r v).machineChecks = c.machineChecks := rfl
@[simp] theorem Core.setT_imageAddr (c : Core) (r : BitVec 5) (v : Tile) : (c.setT r v).imageAddr = c.imageAddr := rfl
@[simp] theorem Core.setT_dfltTable (c : Core) (r : BitVec 5) (v : Tile) : (c.setT r v).dfltTable = c.dfltTable := rfl
@[simp] theorem Core.setT_fw (c : Core) (r : BitVec 5) (v : Tile) : (c.setT r v).fw = c.fw := rfl
@[simp] theorem Core.setT_early (c : Core) (r : BitVec 5) (v : Tile) : (c.setT r v).early = c.early := rfl
@[simp] theorem Core.setT_passed (c : Core) (r : BitVec 5) (v : Tile) : (c.setT r v).passed = c.passed := rfl

@[simp] theorem Core.setA_num (c : Core) (r : BitVec 3) (v : Acc) : (c.setA r v).num = c.num := rfl
@[simp] theorem Core.setA_kind (c : Core) (r : BitVec 3) (v : Acc) : (c.setA r v).kind = c.kind := rfl
@[simp] theorem Core.setA_run (c : Core) (r : BitVec 3) (v : Acc) : (c.setA r v).run = c.run := rfl
@[simp] theorem Core.setA_limits (c : Core) (r : BitVec 3) (v : Acc) : (c.setA r v).limits = c.limits := rfl
@[simp] theorem Core.setA_pc (c : Core) (r : BitVec 3) (v : Acc) : (c.setA r v).pc = c.pc := rfl
@[simp] theorem Core.setA_x (c : Core) (r : BitVec 3) (v : Acc) : (c.setA r v).x = c.x := rfl
@[simp] theorem Core.setA_t (c : Core) (r : BitVec 3) (v : Acc) : (c.setA r v).t = c.t := rfl
@[simp] theorem Core.setA_a (c : Core) (r : BitVec 3) (v : Acc) : (c.setA r v).a = c.a.set r.toNat v := rfl
@[simp] theorem Core.setA_w (c : Core) (r : BitVec 3) (v : Acc) : (c.setA r v).w = c.w := rfl
@[simp] theorem Core.setA_h (c : Core) (r : BitVec 3) (v : Acc) : (c.setA r v).h = c.h := rfl
@[simp] theorem Core.setA_q (c : Core) (r : BitVec 3) (v : Acc) : (c.setA r v).q = c.q := rfl
@[simp] theorem Core.setA_cycle (c : Core) (r : BitVec 3) (v : Acc) : (c.setA r v).cycle = c.cycle := rfl
@[simp] theorem Core.setA_strand (c : Core) (r : BitVec 3) (v : Acc) : (c.setA r v).strand = c.strand := rfl
@[simp] theorem Core.setA_lvl (c : Core) (r : BitVec 3) (v : Acc) : (c.setA r v).lvl = c.lvl := rfl
@[simp] theorem Core.setA_ps (c : Core) (r : BitVec 3) (v : Acc) : (c.setA r v).ps = c.ps := rfl
@[simp] theorem Core.setA_seed (c : Core) (r : BitVec 3) (v : Acc) : (c.setA r v).seed = c.seed := rfl
@[simp] theorem Core.setA_serial (c : Core) (r : BitVec 3) (v : Acc) : (c.setA r v).serial = c.serial := rfl
@[simp] theorem Core.setA_tvec (c : Core) (r : BitVec 3) (v : Acc) : (c.setA r v).tvec = c.tvec := rfl
@[simp] theorem Core.setA_epc (c : Core) (r : BitVec 3) (v : Acc) : (c.setA r v).epc = c.epc := rfl
@[simp] theorem Core.setA_cause (c : Core) (r : BitVec 3) (v : Acc) : (c.setA r v).cause = c.cause := rfl
@[simp] theorem Core.setA_faddr (c : Core) (r : BitVec 3) (v : Acc) : (c.setA r v).faddr = c.faddr := rfl
@[simp] theorem Core.setA_finfo (c : Core) (r : BitVec 3) (v : Acc) : (c.setA r v).finfo = c.finfo := rfl
@[simp] theorem Core.setA_sytmo (c : Core) (r : BitVec 3) (v : Acc) : (c.setA r v).sytmo = c.sytmo := rfl
@[simp] theorem Core.setA_asid (c : Core) (r : BitVec 3) (v : Acc) : (c.setA r v).asid = c.asid := rfl
@[simp] theorem Core.setA_colour (c : Core) (r : BitVec 3) (v : Acc) : (c.setA r v).colour = c.colour := rfl
@[simp] theorem Core.setA_dirtyT (c : Core) (r : BitVec 3) (v : Acc) : (c.setA r v).dirtyT = c.dirtyT := rfl
@[simp] theorem Core.setA_dirtyA (c : Core) (r : BitVec 3) (v : Acc) : (c.setA r v).dirtyA = c.dirtyA ||| 1#8 <<< r.toNat := rfl
@[simp] theorem Core.setA_dirtyW (c : Core) (r : BitVec 3) (v : Acc) : (c.setA r v).dirtyW = c.dirtyW := rfl
@[simp] theorem Core.setA_scr (c : Core) (r : BitVec 3) (v : Acc) : (c.setA r v).scr = c.scr := rfl
@[simp] theorem Core.setA_stash (c : Core) (r : BitVec 3) (v : Acc) : (c.setA r v).stash = c.stash := rfl
@[simp] theorem Core.setA_drain (c : Core) (r : BitVec 3) (v : Acc) : (c.setA r v).drain = c.drain := rfl
@[simp] theorem Core.setA_sent (c : Core) (r : BitVec 3) (v : Acc) : (c.setA r v).sent = c.sent := rfl
@[simp] theorem Core.setA_lineBuffer (c : Core) (r : BitVec 3) (v : Acc) : (c.setA r v).lineBuffer = c.lineBuffer := rfl
@[simp] theorem Core.setA_codeView (c : Core) (r : BitVec 3) (v : Acc) : (c.setA r v).codeView = c.codeView := rfl
@[simp] theorem Core.setA_tlb (c : Core) (r : BitVec 3) (v : Acc) : (c.setA r v).tlb = c.tlb := rfl
@[simp] theorem Core.setA_icache (c : Core) (r : BitVec 3) (v : Acc) : (c.setA r v).icache = c.icache := rfl
@[simp] theorem Core.setA_posts (c : Core) (r : BitVec 3) (v : Acc) : (c.setA r v).posts = c.posts := rfl
@[simp] theorem Core.setA_copies (c : Core) (r : BitVec 3) (v : Acc) : (c.setA r v).copies = c.copies := rfl
@[simp] theorem Core.setA_copyTurn (c : Core) (r : BitVec 3) (v : Acc) : (c.setA r v).copyTurn = c.copyTurn := rfl
@[simp] theorem Core.setA_linkSeq (c : Core) (r : BitVec 3) (v : Acc) : (c.setA r v).linkSeq = c.linkSeq := rfl
@[simp] theorem Core.setA_windowCounts (c : Core) (r : BitVec 3) (v : Acc) : (c.setA r v).windowCounts = c.windowCounts := rfl
@[simp] theorem Core.setA_inbox (c : Core) (r : BitVec 3) (v : Acc) : (c.setA r v).inbox = c.inbox := rfl
@[simp] theorem Core.setA_unaccepted (c : Core) (r : BitVec 3) (v : Acc) : (c.setA r v).unaccepted = c.unaccepted := rfl
@[simp] theorem Core.setA_held (c : Core) (r : BitVec 3) (v : Acc) : (c.setA r v).held = c.held := rfl
@[simp] theorem Core.setA_waitFrom (c : Core) (r : BitVec 3) (v : Acc) : (c.setA r v).waitFrom = c.waitFrom := rfl
@[simp] theorem Core.setA_waiting (c : Core) (r : BitVec 3) (v : Acc) : (c.setA r v).waiting = c.waiting := rfl
@[simp] theorem Core.setA_parked (c : Core) (r : BitVec 3) (v : Acc) : (c.setA r v).parked = c.parked := rfl
@[simp] theorem Core.setA_reports (c : Core) (r : BitVec 3) (v : Acc) : (c.setA r v).reports = c.reports := rfl
@[simp] theorem Core.setA_preempt (c : Core) (r : BitVec 3) (v : Acc) : (c.setA r v).preempt = c.preempt := rfl
@[simp] theorem Core.setA_machineChecks (c : Core) (r : BitVec 3) (v : Acc) : (c.setA r v).machineChecks = c.machineChecks := rfl
@[simp] theorem Core.setA_imageAddr (c : Core) (r : BitVec 3) (v : Acc) : (c.setA r v).imageAddr = c.imageAddr := rfl
@[simp] theorem Core.setA_dfltTable (c : Core) (r : BitVec 3) (v : Acc) : (c.setA r v).dfltTable = c.dfltTable := rfl
@[simp] theorem Core.setA_fw (c : Core) (r : BitVec 3) (v : Acc) : (c.setA r v).fw = c.fw := rfl
@[simp] theorem Core.setA_early (c : Core) (r : BitVec 3) (v : Acc) : (c.setA r v).early = c.early := rfl
@[simp] theorem Core.setA_passed (c : Core) (r : BitVec 3) (v : Acc) : (c.setA r v).passed = c.passed := rfl

@[simp] theorem Core.setW_num (c : Core) (r : BitVec 2) (v : Pin) : (c.setW r v).num = c.num := rfl
@[simp] theorem Core.setW_kind (c : Core) (r : BitVec 2) (v : Pin) : (c.setW r v).kind = c.kind := rfl
@[simp] theorem Core.setW_run (c : Core) (r : BitVec 2) (v : Pin) : (c.setW r v).run = c.run := rfl
@[simp] theorem Core.setW_limits (c : Core) (r : BitVec 2) (v : Pin) : (c.setW r v).limits = c.limits := rfl
@[simp] theorem Core.setW_pc (c : Core) (r : BitVec 2) (v : Pin) : (c.setW r v).pc = c.pc := rfl
@[simp] theorem Core.setW_x (c : Core) (r : BitVec 2) (v : Pin) : (c.setW r v).x = c.x := rfl
@[simp] theorem Core.setW_t (c : Core) (r : BitVec 2) (v : Pin) : (c.setW r v).t = c.t := rfl
@[simp] theorem Core.setW_a (c : Core) (r : BitVec 2) (v : Pin) : (c.setW r v).a = c.a := rfl
@[simp] theorem Core.setW_w (c : Core) (r : BitVec 2) (v : Pin) : (c.setW r v).w = c.w.set r.toNat v := rfl
@[simp] theorem Core.setW_h (c : Core) (r : BitVec 2) (v : Pin) : (c.setW r v).h = c.h := rfl
@[simp] theorem Core.setW_q (c : Core) (r : BitVec 2) (v : Pin) : (c.setW r v).q = c.q := rfl
@[simp] theorem Core.setW_cycle (c : Core) (r : BitVec 2) (v : Pin) : (c.setW r v).cycle = c.cycle := rfl
@[simp] theorem Core.setW_strand (c : Core) (r : BitVec 2) (v : Pin) : (c.setW r v).strand = c.strand := rfl
@[simp] theorem Core.setW_lvl (c : Core) (r : BitVec 2) (v : Pin) : (c.setW r v).lvl = c.lvl := rfl
@[simp] theorem Core.setW_ps (c : Core) (r : BitVec 2) (v : Pin) : (c.setW r v).ps = c.ps := rfl
@[simp] theorem Core.setW_seed (c : Core) (r : BitVec 2) (v : Pin) : (c.setW r v).seed = c.seed := rfl
@[simp] theorem Core.setW_serial (c : Core) (r : BitVec 2) (v : Pin) : (c.setW r v).serial = c.serial := rfl
@[simp] theorem Core.setW_tvec (c : Core) (r : BitVec 2) (v : Pin) : (c.setW r v).tvec = c.tvec := rfl
@[simp] theorem Core.setW_epc (c : Core) (r : BitVec 2) (v : Pin) : (c.setW r v).epc = c.epc := rfl
@[simp] theorem Core.setW_cause (c : Core) (r : BitVec 2) (v : Pin) : (c.setW r v).cause = c.cause := rfl
@[simp] theorem Core.setW_faddr (c : Core) (r : BitVec 2) (v : Pin) : (c.setW r v).faddr = c.faddr := rfl
@[simp] theorem Core.setW_finfo (c : Core) (r : BitVec 2) (v : Pin) : (c.setW r v).finfo = c.finfo := rfl
@[simp] theorem Core.setW_sytmo (c : Core) (r : BitVec 2) (v : Pin) : (c.setW r v).sytmo = c.sytmo := rfl
@[simp] theorem Core.setW_asid (c : Core) (r : BitVec 2) (v : Pin) : (c.setW r v).asid = c.asid := rfl
@[simp] theorem Core.setW_colour (c : Core) (r : BitVec 2) (v : Pin) : (c.setW r v).colour = c.colour := rfl
@[simp] theorem Core.setW_dirtyT (c : Core) (r : BitVec 2) (v : Pin) : (c.setW r v).dirtyT = c.dirtyT := rfl
@[simp] theorem Core.setW_dirtyA (c : Core) (r : BitVec 2) (v : Pin) : (c.setW r v).dirtyA = c.dirtyA := rfl
@[simp] theorem Core.setW_dirtyW (c : Core) (r : BitVec 2) (v : Pin) : (c.setW r v).dirtyW = c.dirtyW ||| 1#4 <<< r.toNat := rfl
@[simp] theorem Core.setW_scr (c : Core) (r : BitVec 2) (v : Pin) : (c.setW r v).scr = c.scr := rfl
@[simp] theorem Core.setW_stash (c : Core) (r : BitVec 2) (v : Pin) : (c.setW r v).stash = c.stash := rfl
@[simp] theorem Core.setW_drain (c : Core) (r : BitVec 2) (v : Pin) : (c.setW r v).drain = c.drain := rfl
@[simp] theorem Core.setW_sent (c : Core) (r : BitVec 2) (v : Pin) : (c.setW r v).sent = c.sent := rfl
@[simp] theorem Core.setW_lineBuffer (c : Core) (r : BitVec 2) (v : Pin) : (c.setW r v).lineBuffer = c.lineBuffer := rfl
@[simp] theorem Core.setW_codeView (c : Core) (r : BitVec 2) (v : Pin) : (c.setW r v).codeView = c.codeView := rfl
@[simp] theorem Core.setW_tlb (c : Core) (r : BitVec 2) (v : Pin) : (c.setW r v).tlb = c.tlb := rfl
@[simp] theorem Core.setW_icache (c : Core) (r : BitVec 2) (v : Pin) : (c.setW r v).icache = c.icache := rfl
@[simp] theorem Core.setW_posts (c : Core) (r : BitVec 2) (v : Pin) : (c.setW r v).posts = c.posts := rfl
@[simp] theorem Core.setW_copies (c : Core) (r : BitVec 2) (v : Pin) : (c.setW r v).copies = c.copies := rfl
@[simp] theorem Core.setW_copyTurn (c : Core) (r : BitVec 2) (v : Pin) : (c.setW r v).copyTurn = c.copyTurn := rfl
@[simp] theorem Core.setW_linkSeq (c : Core) (r : BitVec 2) (v : Pin) : (c.setW r v).linkSeq = c.linkSeq := rfl
@[simp] theorem Core.setW_windowCounts (c : Core) (r : BitVec 2) (v : Pin) : (c.setW r v).windowCounts = c.windowCounts := rfl
@[simp] theorem Core.setW_inbox (c : Core) (r : BitVec 2) (v : Pin) : (c.setW r v).inbox = c.inbox := rfl
@[simp] theorem Core.setW_unaccepted (c : Core) (r : BitVec 2) (v : Pin) : (c.setW r v).unaccepted = c.unaccepted := rfl
@[simp] theorem Core.setW_held (c : Core) (r : BitVec 2) (v : Pin) : (c.setW r v).held = c.held := rfl
@[simp] theorem Core.setW_waitFrom (c : Core) (r : BitVec 2) (v : Pin) : (c.setW r v).waitFrom = c.waitFrom := rfl
@[simp] theorem Core.setW_waiting (c : Core) (r : BitVec 2) (v : Pin) : (c.setW r v).waiting = c.waiting := rfl
@[simp] theorem Core.setW_parked (c : Core) (r : BitVec 2) (v : Pin) : (c.setW r v).parked = c.parked := rfl
@[simp] theorem Core.setW_reports (c : Core) (r : BitVec 2) (v : Pin) : (c.setW r v).reports = c.reports := rfl
@[simp] theorem Core.setW_preempt (c : Core) (r : BitVec 2) (v : Pin) : (c.setW r v).preempt = c.preempt := rfl
@[simp] theorem Core.setW_machineChecks (c : Core) (r : BitVec 2) (v : Pin) : (c.setW r v).machineChecks = c.machineChecks := rfl
@[simp] theorem Core.setW_imageAddr (c : Core) (r : BitVec 2) (v : Pin) : (c.setW r v).imageAddr = c.imageAddr := rfl
@[simp] theorem Core.setW_dfltTable (c : Core) (r : BitVec 2) (v : Pin) : (c.setW r v).dfltTable = c.dfltTable := rfl
@[simp] theorem Core.setW_fw (c : Core) (r : BitVec 2) (v : Pin) : (c.setW r v).fw = c.fw := rfl
@[simp] theorem Core.setW_early (c : Core) (r : BitVec 2) (v : Pin) : (c.setW r v).early = c.early := rfl
@[simp] theorem Core.setW_passed (c : Core) (r : BitVec 2) (v : Pin) : (c.setW r v).passed = c.passed := rfl

@[simp] theorem Core.setQ_num (c : Core) (r : BitVec 4) (v : Word) : (c.setQ r v).num = c.num := rfl
@[simp] theorem Core.setQ_kind (c : Core) (r : BitVec 4) (v : Word) : (c.setQ r v).kind = c.kind := rfl
@[simp] theorem Core.setQ_run (c : Core) (r : BitVec 4) (v : Word) : (c.setQ r v).run = c.run := rfl
@[simp] theorem Core.setQ_limits (c : Core) (r : BitVec 4) (v : Word) : (c.setQ r v).limits = c.limits := rfl
@[simp] theorem Core.setQ_pc (c : Core) (r : BitVec 4) (v : Word) : (c.setQ r v).pc = c.pc := rfl
@[simp] theorem Core.setQ_x (c : Core) (r : BitVec 4) (v : Word) : (c.setQ r v).x = c.x := rfl
@[simp] theorem Core.setQ_t (c : Core) (r : BitVec 4) (v : Word) : (c.setQ r v).t = c.t := rfl
@[simp] theorem Core.setQ_a (c : Core) (r : BitVec 4) (v : Word) : (c.setQ r v).a = c.a := rfl
@[simp] theorem Core.setQ_w (c : Core) (r : BitVec 4) (v : Word) : (c.setQ r v).w = c.w := rfl
@[simp] theorem Core.setQ_h (c : Core) (r : BitVec 4) (v : Word) : (c.setQ r v).h = c.h := rfl
@[simp] theorem Core.setQ_q (c : Core) (r : BitVec 4) (v : Word) : (c.setQ r v).q = c.q.set r.toNat v := rfl
@[simp] theorem Core.setQ_cycle (c : Core) (r : BitVec 4) (v : Word) : (c.setQ r v).cycle = c.cycle := rfl
@[simp] theorem Core.setQ_strand (c : Core) (r : BitVec 4) (v : Word) : (c.setQ r v).strand = c.strand := rfl
@[simp] theorem Core.setQ_lvl (c : Core) (r : BitVec 4) (v : Word) : (c.setQ r v).lvl = c.lvl := rfl
@[simp] theorem Core.setQ_ps (c : Core) (r : BitVec 4) (v : Word) : (c.setQ r v).ps = c.ps := rfl
@[simp] theorem Core.setQ_seed (c : Core) (r : BitVec 4) (v : Word) : (c.setQ r v).seed = c.seed := rfl
@[simp] theorem Core.setQ_serial (c : Core) (r : BitVec 4) (v : Word) : (c.setQ r v).serial = c.serial := rfl
@[simp] theorem Core.setQ_tvec (c : Core) (r : BitVec 4) (v : Word) : (c.setQ r v).tvec = c.tvec := rfl
@[simp] theorem Core.setQ_epc (c : Core) (r : BitVec 4) (v : Word) : (c.setQ r v).epc = c.epc := rfl
@[simp] theorem Core.setQ_cause (c : Core) (r : BitVec 4) (v : Word) : (c.setQ r v).cause = c.cause := rfl
@[simp] theorem Core.setQ_faddr (c : Core) (r : BitVec 4) (v : Word) : (c.setQ r v).faddr = c.faddr := rfl
@[simp] theorem Core.setQ_finfo (c : Core) (r : BitVec 4) (v : Word) : (c.setQ r v).finfo = c.finfo := rfl
@[simp] theorem Core.setQ_sytmo (c : Core) (r : BitVec 4) (v : Word) : (c.setQ r v).sytmo = c.sytmo := rfl
@[simp] theorem Core.setQ_asid (c : Core) (r : BitVec 4) (v : Word) : (c.setQ r v).asid = c.asid := rfl
@[simp] theorem Core.setQ_colour (c : Core) (r : BitVec 4) (v : Word) : (c.setQ r v).colour = c.colour := rfl
@[simp] theorem Core.setQ_dirtyT (c : Core) (r : BitVec 4) (v : Word) : (c.setQ r v).dirtyT = c.dirtyT := rfl
@[simp] theorem Core.setQ_dirtyA (c : Core) (r : BitVec 4) (v : Word) : (c.setQ r v).dirtyA = c.dirtyA := rfl
@[simp] theorem Core.setQ_dirtyW (c : Core) (r : BitVec 4) (v : Word) : (c.setQ r v).dirtyW = c.dirtyW := rfl
@[simp] theorem Core.setQ_scr (c : Core) (r : BitVec 4) (v : Word) : (c.setQ r v).scr = c.scr := rfl
@[simp] theorem Core.setQ_stash (c : Core) (r : BitVec 4) (v : Word) : (c.setQ r v).stash = c.stash := rfl
@[simp] theorem Core.setQ_drain (c : Core) (r : BitVec 4) (v : Word) : (c.setQ r v).drain = c.drain := rfl
@[simp] theorem Core.setQ_sent (c : Core) (r : BitVec 4) (v : Word) : (c.setQ r v).sent = c.sent := rfl
@[simp] theorem Core.setQ_lineBuffer (c : Core) (r : BitVec 4) (v : Word) : (c.setQ r v).lineBuffer = c.lineBuffer := rfl
@[simp] theorem Core.setQ_codeView (c : Core) (r : BitVec 4) (v : Word) : (c.setQ r v).codeView = c.codeView := rfl
@[simp] theorem Core.setQ_tlb (c : Core) (r : BitVec 4) (v : Word) : (c.setQ r v).tlb = c.tlb := rfl
@[simp] theorem Core.setQ_icache (c : Core) (r : BitVec 4) (v : Word) : (c.setQ r v).icache = c.icache := rfl
@[simp] theorem Core.setQ_posts (c : Core) (r : BitVec 4) (v : Word) : (c.setQ r v).posts = c.posts := rfl
@[simp] theorem Core.setQ_copies (c : Core) (r : BitVec 4) (v : Word) : (c.setQ r v).copies = c.copies := rfl
@[simp] theorem Core.setQ_copyTurn (c : Core) (r : BitVec 4) (v : Word) : (c.setQ r v).copyTurn = c.copyTurn := rfl
@[simp] theorem Core.setQ_linkSeq (c : Core) (r : BitVec 4) (v : Word) : (c.setQ r v).linkSeq = c.linkSeq := rfl
@[simp] theorem Core.setQ_windowCounts (c : Core) (r : BitVec 4) (v : Word) : (c.setQ r v).windowCounts = c.windowCounts := rfl
@[simp] theorem Core.setQ_inbox (c : Core) (r : BitVec 4) (v : Word) : (c.setQ r v).inbox = c.inbox := rfl
@[simp] theorem Core.setQ_unaccepted (c : Core) (r : BitVec 4) (v : Word) : (c.setQ r v).unaccepted = c.unaccepted := rfl
@[simp] theorem Core.setQ_held (c : Core) (r : BitVec 4) (v : Word) : (c.setQ r v).held = c.held := rfl
@[simp] theorem Core.setQ_waitFrom (c : Core) (r : BitVec 4) (v : Word) : (c.setQ r v).waitFrom = c.waitFrom := rfl
@[simp] theorem Core.setQ_waiting (c : Core) (r : BitVec 4) (v : Word) : (c.setQ r v).waiting = c.waiting := rfl
@[simp] theorem Core.setQ_parked (c : Core) (r : BitVec 4) (v : Word) : (c.setQ r v).parked = c.parked := rfl
@[simp] theorem Core.setQ_reports (c : Core) (r : BitVec 4) (v : Word) : (c.setQ r v).reports = c.reports := rfl
@[simp] theorem Core.setQ_preempt (c : Core) (r : BitVec 4) (v : Word) : (c.setQ r v).preempt = c.preempt := rfl
@[simp] theorem Core.setQ_machineChecks (c : Core) (r : BitVec 4) (v : Word) : (c.setQ r v).machineChecks = c.machineChecks := rfl
@[simp] theorem Core.setQ_imageAddr (c : Core) (r : BitVec 4) (v : Word) : (c.setQ r v).imageAddr = c.imageAddr := rfl
@[simp] theorem Core.setQ_dfltTable (c : Core) (r : BitVec 4) (v : Word) : (c.setQ r v).dfltTable = c.dfltTable := rfl
@[simp] theorem Core.setQ_fw (c : Core) (r : BitVec 4) (v : Word) : (c.setQ r v).fw = c.fw := rfl
@[simp] theorem Core.setQ_early (c : Core) (r : BitVec 4) (v : Word) : (c.setQ r v).early = c.early := rfl
@[simp] theorem Core.setQ_passed (c : Core) (r : BitVec 4) (v : Word) : (c.setQ r v).passed = c.passed := rfl

@[simp] theorem Core.orFlags_num (c : Core) (f : BitVec 5) : (c.orFlags f).num = c.num := rfl
@[simp] theorem Core.orFlags_kind (c : Core) (f : BitVec 5) : (c.orFlags f).kind = c.kind := rfl
@[simp] theorem Core.orFlags_run (c : Core) (f : BitVec 5) : (c.orFlags f).run = c.run := rfl
@[simp] theorem Core.orFlags_limits (c : Core) (f : BitVec 5) : (c.orFlags f).limits = c.limits := rfl
@[simp] theorem Core.orFlags_pc (c : Core) (f : BitVec 5) : (c.orFlags f).pc = c.pc := rfl
@[simp] theorem Core.orFlags_x (c : Core) (f : BitVec 5) : (c.orFlags f).x = c.x := rfl
@[simp] theorem Core.orFlags_t (c : Core) (f : BitVec 5) : (c.orFlags f).t = c.t := rfl
@[simp] theorem Core.orFlags_a (c : Core) (f : BitVec 5) : (c.orFlags f).a = c.a := rfl
@[simp] theorem Core.orFlags_w (c : Core) (f : BitVec 5) : (c.orFlags f).w = c.w := rfl
@[simp] theorem Core.orFlags_h (c : Core) (f : BitVec 5) : (c.orFlags f).h = c.h := rfl
@[simp] theorem Core.orFlags_q (c : Core) (f : BitVec 5) : (c.orFlags f).q = c.q := rfl
@[simp] theorem Core.orFlags_cycle (c : Core) (f : BitVec 5) : (c.orFlags f).cycle = c.cycle := rfl
@[simp] theorem Core.orFlags_strand (c : Core) (f : BitVec 5) : (c.orFlags f).strand = c.strand := rfl
@[simp] theorem Core.orFlags_lvl (c : Core) (f : BitVec 5) : (c.orFlags f).lvl = c.lvl := rfl
@[simp] theorem Core.orFlags_ps (c : Core) (f : BitVec 5) : (c.orFlags f).ps = c.ps ||| f.setWidth 64 <<< 3 := rfl
@[simp] theorem Core.orFlags_seed (c : Core) (f : BitVec 5) : (c.orFlags f).seed = c.seed := rfl
@[simp] theorem Core.orFlags_serial (c : Core) (f : BitVec 5) : (c.orFlags f).serial = c.serial := rfl
@[simp] theorem Core.orFlags_tvec (c : Core) (f : BitVec 5) : (c.orFlags f).tvec = c.tvec := rfl
@[simp] theorem Core.orFlags_epc (c : Core) (f : BitVec 5) : (c.orFlags f).epc = c.epc := rfl
@[simp] theorem Core.orFlags_cause (c : Core) (f : BitVec 5) : (c.orFlags f).cause = c.cause := rfl
@[simp] theorem Core.orFlags_faddr (c : Core) (f : BitVec 5) : (c.orFlags f).faddr = c.faddr := rfl
@[simp] theorem Core.orFlags_finfo (c : Core) (f : BitVec 5) : (c.orFlags f).finfo = c.finfo := rfl
@[simp] theorem Core.orFlags_sytmo (c : Core) (f : BitVec 5) : (c.orFlags f).sytmo = c.sytmo := rfl
@[simp] theorem Core.orFlags_asid (c : Core) (f : BitVec 5) : (c.orFlags f).asid = c.asid := rfl
@[simp] theorem Core.orFlags_colour (c : Core) (f : BitVec 5) : (c.orFlags f).colour = c.colour := rfl
@[simp] theorem Core.orFlags_dirtyT (c : Core) (f : BitVec 5) : (c.orFlags f).dirtyT = c.dirtyT := rfl
@[simp] theorem Core.orFlags_dirtyA (c : Core) (f : BitVec 5) : (c.orFlags f).dirtyA = c.dirtyA := rfl
@[simp] theorem Core.orFlags_dirtyW (c : Core) (f : BitVec 5) : (c.orFlags f).dirtyW = c.dirtyW := rfl
@[simp] theorem Core.orFlags_scr (c : Core) (f : BitVec 5) : (c.orFlags f).scr = c.scr := rfl
@[simp] theorem Core.orFlags_stash (c : Core) (f : BitVec 5) : (c.orFlags f).stash = c.stash := rfl
@[simp] theorem Core.orFlags_drain (c : Core) (f : BitVec 5) : (c.orFlags f).drain = c.drain := rfl
@[simp] theorem Core.orFlags_sent (c : Core) (f : BitVec 5) : (c.orFlags f).sent = c.sent := rfl
@[simp] theorem Core.orFlags_lineBuffer (c : Core) (f : BitVec 5) : (c.orFlags f).lineBuffer = c.lineBuffer := rfl
@[simp] theorem Core.orFlags_codeView (c : Core) (f : BitVec 5) : (c.orFlags f).codeView = c.codeView := rfl
@[simp] theorem Core.orFlags_tlb (c : Core) (f : BitVec 5) : (c.orFlags f).tlb = c.tlb := rfl
@[simp] theorem Core.orFlags_icache (c : Core) (f : BitVec 5) : (c.orFlags f).icache = c.icache := rfl
@[simp] theorem Core.orFlags_posts (c : Core) (f : BitVec 5) : (c.orFlags f).posts = c.posts := rfl
@[simp] theorem Core.orFlags_copies (c : Core) (f : BitVec 5) : (c.orFlags f).copies = c.copies := rfl
@[simp] theorem Core.orFlags_copyTurn (c : Core) (f : BitVec 5) : (c.orFlags f).copyTurn = c.copyTurn := rfl
@[simp] theorem Core.orFlags_linkSeq (c : Core) (f : BitVec 5) : (c.orFlags f).linkSeq = c.linkSeq := rfl
@[simp] theorem Core.orFlags_windowCounts (c : Core) (f : BitVec 5) : (c.orFlags f).windowCounts = c.windowCounts := rfl
@[simp] theorem Core.orFlags_inbox (c : Core) (f : BitVec 5) : (c.orFlags f).inbox = c.inbox := rfl
@[simp] theorem Core.orFlags_unaccepted (c : Core) (f : BitVec 5) : (c.orFlags f).unaccepted = c.unaccepted := rfl
@[simp] theorem Core.orFlags_held (c : Core) (f : BitVec 5) : (c.orFlags f).held = c.held := rfl
@[simp] theorem Core.orFlags_waitFrom (c : Core) (f : BitVec 5) : (c.orFlags f).waitFrom = c.waitFrom := rfl
@[simp] theorem Core.orFlags_waiting (c : Core) (f : BitVec 5) : (c.orFlags f).waiting = c.waiting := rfl
@[simp] theorem Core.orFlags_parked (c : Core) (f : BitVec 5) : (c.orFlags f).parked = c.parked := rfl
@[simp] theorem Core.orFlags_reports (c : Core) (f : BitVec 5) : (c.orFlags f).reports = c.reports := rfl
@[simp] theorem Core.orFlags_preempt (c : Core) (f : BitVec 5) : (c.orFlags f).preempt = c.preempt := rfl
@[simp] theorem Core.orFlags_machineChecks (c : Core) (f : BitVec 5) : (c.orFlags f).machineChecks = c.machineChecks := rfl
@[simp] theorem Core.orFlags_imageAddr (c : Core) (f : BitVec 5) : (c.orFlags f).imageAddr = c.imageAddr := rfl
@[simp] theorem Core.orFlags_dfltTable (c : Core) (f : BitVec 5) : (c.orFlags f).dfltTable = c.dfltTable := rfl
@[simp] theorem Core.orFlags_fw (c : Core) (f : BitVec 5) : (c.orFlags f).fw = c.fw := rfl
@[simp] theorem Core.orFlags_early (c : Core) (f : BitVec 5) : (c.orFlags f).early = c.early := rfl
@[simp] theorem Core.orFlags_passed (c : Core) (f : BitVec 5) : (c.orFlags f).passed = c.passed := rfl

@[simp] theorem Core.countSr_num (c : Core) (b : Bool) : (c.countSr b).num = c.num := by unfold Core.countSr; split <;> rfl
@[simp] theorem Core.countSr_kind (c : Core) (b : Bool) : (c.countSr b).kind = c.kind := by unfold Core.countSr; split <;> rfl
@[simp] theorem Core.countSr_run (c : Core) (b : Bool) : (c.countSr b).run = c.run := by unfold Core.countSr; split <;> rfl
@[simp] theorem Core.countSr_limits (c : Core) (b : Bool) : (c.countSr b).limits = c.limits := by unfold Core.countSr; split <;> rfl
@[simp] theorem Core.countSr_pc (c : Core) (b : Bool) : (c.countSr b).pc = c.pc := by unfold Core.countSr; split <;> rfl
@[simp] theorem Core.countSr_x (c : Core) (b : Bool) : (c.countSr b).x = c.x := by unfold Core.countSr; split <;> rfl
@[simp] theorem Core.countSr_t (c : Core) (b : Bool) : (c.countSr b).t = c.t := by unfold Core.countSr; split <;> rfl
@[simp] theorem Core.countSr_a (c : Core) (b : Bool) : (c.countSr b).a = c.a := by unfold Core.countSr; split <;> rfl
@[simp] theorem Core.countSr_w (c : Core) (b : Bool) : (c.countSr b).w = c.w := by unfold Core.countSr; split <;> rfl
@[simp] theorem Core.countSr_h (c : Core) (b : Bool) : (c.countSr b).h = c.h := by unfold Core.countSr; split <;> rfl
@[simp] theorem Core.countSr_q (c : Core) (b : Bool) : (c.countSr b).q = c.q := by unfold Core.countSr; split <;> rfl
@[simp] theorem Core.countSr_cycle (c : Core) (b : Bool) : (c.countSr b).cycle = c.cycle := by unfold Core.countSr; split <;> rfl
@[simp] theorem Core.countSr_strand (c : Core) (b : Bool) : (c.countSr b).strand = c.strand := by unfold Core.countSr; split <;> rfl
@[simp] theorem Core.countSr_lvl (c : Core) (b : Bool) : (c.countSr b).lvl = c.lvl := by unfold Core.countSr; split <;> rfl
@[simp] theorem Core.countSr_ps (c : Core) (b : Bool) : (c.countSr b).ps = c.ps := by unfold Core.countSr; split <;> rfl
@[simp] theorem Core.countSr_seed (c : Core) (b : Bool) : (c.countSr b).seed = c.seed := by unfold Core.countSr; split <;> rfl
@[simp] theorem Core.countSr_tvec (c : Core) (b : Bool) : (c.countSr b).tvec = c.tvec := by unfold Core.countSr; split <;> rfl
@[simp] theorem Core.countSr_epc (c : Core) (b : Bool) : (c.countSr b).epc = c.epc := by unfold Core.countSr; split <;> rfl
@[simp] theorem Core.countSr_cause (c : Core) (b : Bool) : (c.countSr b).cause = c.cause := by unfold Core.countSr; split <;> rfl
@[simp] theorem Core.countSr_faddr (c : Core) (b : Bool) : (c.countSr b).faddr = c.faddr := by unfold Core.countSr; split <;> rfl
@[simp] theorem Core.countSr_finfo (c : Core) (b : Bool) : (c.countSr b).finfo = c.finfo := by unfold Core.countSr; split <;> rfl
@[simp] theorem Core.countSr_sytmo (c : Core) (b : Bool) : (c.countSr b).sytmo = c.sytmo := by unfold Core.countSr; split <;> rfl
@[simp] theorem Core.countSr_asid (c : Core) (b : Bool) : (c.countSr b).asid = c.asid := by unfold Core.countSr; split <;> rfl
@[simp] theorem Core.countSr_colour (c : Core) (b : Bool) : (c.countSr b).colour = c.colour := by unfold Core.countSr; split <;> rfl
@[simp] theorem Core.countSr_dirtyT (c : Core) (b : Bool) : (c.countSr b).dirtyT = c.dirtyT := by unfold Core.countSr; split <;> rfl
@[simp] theorem Core.countSr_dirtyA (c : Core) (b : Bool) : (c.countSr b).dirtyA = c.dirtyA := by unfold Core.countSr; split <;> rfl
@[simp] theorem Core.countSr_dirtyW (c : Core) (b : Bool) : (c.countSr b).dirtyW = c.dirtyW := by unfold Core.countSr; split <;> rfl
@[simp] theorem Core.countSr_scr (c : Core) (b : Bool) : (c.countSr b).scr = c.scr := by unfold Core.countSr; split <;> rfl
@[simp] theorem Core.countSr_stash (c : Core) (b : Bool) : (c.countSr b).stash = c.stash := by unfold Core.countSr; split <;> rfl
@[simp] theorem Core.countSr_drain (c : Core) (b : Bool) : (c.countSr b).drain = c.drain := by unfold Core.countSr; split <;> rfl
@[simp] theorem Core.countSr_sent (c : Core) (b : Bool) : (c.countSr b).sent = c.sent := by unfold Core.countSr; split <;> rfl
@[simp] theorem Core.countSr_lineBuffer (c : Core) (b : Bool) : (c.countSr b).lineBuffer = c.lineBuffer := by unfold Core.countSr; split <;> rfl
@[simp] theorem Core.countSr_codeView (c : Core) (b : Bool) : (c.countSr b).codeView = c.codeView := by unfold Core.countSr; split <;> rfl
@[simp] theorem Core.countSr_tlb (c : Core) (b : Bool) : (c.countSr b).tlb = c.tlb := by unfold Core.countSr; split <;> rfl
@[simp] theorem Core.countSr_icache (c : Core) (b : Bool) : (c.countSr b).icache = c.icache := by unfold Core.countSr; split <;> rfl
@[simp] theorem Core.countSr_posts (c : Core) (b : Bool) : (c.countSr b).posts = c.posts := by unfold Core.countSr; split <;> rfl
@[simp] theorem Core.countSr_copies (c : Core) (b : Bool) : (c.countSr b).copies = c.copies := by unfold Core.countSr; split <;> rfl
@[simp] theorem Core.countSr_copyTurn (c : Core) (b : Bool) : (c.countSr b).copyTurn = c.copyTurn := by unfold Core.countSr; split <;> rfl
@[simp] theorem Core.countSr_linkSeq (c : Core) (b : Bool) : (c.countSr b).linkSeq = c.linkSeq := by unfold Core.countSr; split <;> rfl
@[simp] theorem Core.countSr_windowCounts (c : Core) (b : Bool) : (c.countSr b).windowCounts = c.windowCounts := by unfold Core.countSr; split <;> rfl
@[simp] theorem Core.countSr_inbox (c : Core) (b : Bool) : (c.countSr b).inbox = c.inbox := by unfold Core.countSr; split <;> rfl
@[simp] theorem Core.countSr_unaccepted (c : Core) (b : Bool) : (c.countSr b).unaccepted = c.unaccepted := by unfold Core.countSr; split <;> rfl
@[simp] theorem Core.countSr_held (c : Core) (b : Bool) : (c.countSr b).held = c.held := by unfold Core.countSr; split <;> rfl
@[simp] theorem Core.countSr_waitFrom (c : Core) (b : Bool) : (c.countSr b).waitFrom = c.waitFrom := by unfold Core.countSr; split <;> rfl
@[simp] theorem Core.countSr_waiting (c : Core) (b : Bool) : (c.countSr b).waiting = c.waiting := by unfold Core.countSr; split <;> rfl
@[simp] theorem Core.countSr_parked (c : Core) (b : Bool) : (c.countSr b).parked = c.parked := by unfold Core.countSr; split <;> rfl
@[simp] theorem Core.countSr_reports (c : Core) (b : Bool) : (c.countSr b).reports = c.reports := by unfold Core.countSr; split <;> rfl
@[simp] theorem Core.countSr_preempt (c : Core) (b : Bool) : (c.countSr b).preempt = c.preempt := by unfold Core.countSr; split <;> rfl
@[simp] theorem Core.countSr_machineChecks (c : Core) (b : Bool) : (c.countSr b).machineChecks = c.machineChecks := by unfold Core.countSr; split <;> rfl
@[simp] theorem Core.countSr_imageAddr (c : Core) (b : Bool) : (c.countSr b).imageAddr = c.imageAddr := by unfold Core.countSr; split <;> rfl
@[simp] theorem Core.countSr_dfltTable (c : Core) (b : Bool) : (c.countSr b).dfltTable = c.dfltTable := by unfold Core.countSr; split <;> rfl
@[simp] theorem Core.countSr_fw (c : Core) (b : Bool) : (c.countSr b).fw = c.fw := by unfold Core.countSr; split <;> rfl
@[simp] theorem Core.countSr_early (c : Core) (b : Bool) : (c.countSr b).early = c.early := by unfold Core.countSr; split <;> rfl
@[simp] theorem Core.countSr_passed (c : Core) (b : Bool) : (c.countSr b).passed = c.passed := by unfold Core.countSr; split <;> rfl

@[simp] theorem Core.leave_num (c : Core) (pc : Word) : (c.leave pc).num = c.num := rfl
@[simp] theorem Core.leave_kind (c : Core) (pc : Word) : (c.leave pc).kind = c.kind := rfl
@[simp] theorem Core.leave_run (c : Core) (pc : Word) : (c.leave pc).run = c.run := rfl
@[simp] theorem Core.leave_limits (c : Core) (pc : Word) : (c.leave pc).limits = c.limits := rfl
@[simp] theorem Core.leave_pc (c : Core) (pc : Word) : (c.leave pc).pc = pc := rfl
@[simp] theorem Core.leave_x (c : Core) (pc : Word) : (c.leave pc).x = c.x := rfl
@[simp] theorem Core.leave_t (c : Core) (pc : Word) : (c.leave pc).t = c.t := rfl
@[simp] theorem Core.leave_a (c : Core) (pc : Word) : (c.leave pc).a = c.a := rfl
@[simp] theorem Core.leave_w (c : Core) (pc : Word) : (c.leave pc).w = c.w := rfl
@[simp] theorem Core.leave_h (c : Core) (pc : Word) : (c.leave pc).h = c.h := rfl
@[simp] theorem Core.leave_q (c : Core) (pc : Word) : (c.leave pc).q = c.q := rfl
@[simp] theorem Core.leave_cycle (c : Core) (pc : Word) : (c.leave pc).cycle = c.cycle := rfl
@[simp] theorem Core.leave_strand (c : Core) (pc : Word) : (c.leave pc).strand = c.strand := rfl
@[simp] theorem Core.leave_lvl (c : Core) (pc : Word) : (c.leave pc).lvl = c.lvl := rfl
@[simp] theorem Core.leave_ps (c : Core) (pc : Word) : (c.leave pc).ps = c.ps := rfl
@[simp] theorem Core.leave_seed (c : Core) (pc : Word) : (c.leave pc).seed = c.seed := rfl
@[simp] theorem Core.leave_serial (c : Core) (pc : Word) : (c.leave pc).serial = c.serial := rfl
@[simp] theorem Core.leave_tvec (c : Core) (pc : Word) : (c.leave pc).tvec = c.tvec := rfl
@[simp] theorem Core.leave_epc (c : Core) (pc : Word) : (c.leave pc).epc = c.epc := rfl
@[simp] theorem Core.leave_cause (c : Core) (pc : Word) : (c.leave pc).cause = c.cause := rfl
@[simp] theorem Core.leave_faddr (c : Core) (pc : Word) : (c.leave pc).faddr = c.faddr := rfl
@[simp] theorem Core.leave_finfo (c : Core) (pc : Word) : (c.leave pc).finfo = c.finfo := rfl
@[simp] theorem Core.leave_sytmo (c : Core) (pc : Word) : (c.leave pc).sytmo = c.sytmo := rfl
@[simp] theorem Core.leave_asid (c : Core) (pc : Word) : (c.leave pc).asid = c.asid := rfl
@[simp] theorem Core.leave_colour (c : Core) (pc : Word) : (c.leave pc).colour = c.colour := rfl
@[simp] theorem Core.leave_dirtyT (c : Core) (pc : Word) : (c.leave pc).dirtyT = c.dirtyT := rfl
@[simp] theorem Core.leave_dirtyA (c : Core) (pc : Word) : (c.leave pc).dirtyA = c.dirtyA := rfl
@[simp] theorem Core.leave_dirtyW (c : Core) (pc : Word) : (c.leave pc).dirtyW = c.dirtyW := rfl
@[simp] theorem Core.leave_scr (c : Core) (pc : Word) : (c.leave pc).scr = c.scr := rfl
@[simp] theorem Core.leave_stash (c : Core) (pc : Word) : (c.leave pc).stash = c.stash := rfl
@[simp] theorem Core.leave_drain (c : Core) (pc : Word) : (c.leave pc).drain = c.drain := rfl
@[simp] theorem Core.leave_sent (c : Core) (pc : Word) : (c.leave pc).sent = c.sent := rfl
@[simp] theorem Core.leave_lineBuffer (c : Core) (pc : Word) : (c.leave pc).lineBuffer = c.lineBuffer := rfl
@[simp] theorem Core.leave_codeView (c : Core) (pc : Word) : (c.leave pc).codeView = c.codeView := rfl
@[simp] theorem Core.leave_tlb (c : Core) (pc : Word) : (c.leave pc).tlb = c.tlb := rfl
@[simp] theorem Core.leave_icache (c : Core) (pc : Word) : (c.leave pc).icache = c.icache := rfl
@[simp] theorem Core.leave_posts (c : Core) (pc : Word) : (c.leave pc).posts = c.posts := rfl
@[simp] theorem Core.leave_copies (c : Core) (pc : Word) : (c.leave pc).copies = c.copies := rfl
@[simp] theorem Core.leave_copyTurn (c : Core) (pc : Word) : (c.leave pc).copyTurn = c.copyTurn := rfl
@[simp] theorem Core.leave_linkSeq (c : Core) (pc : Word) : (c.leave pc).linkSeq = c.linkSeq := rfl
@[simp] theorem Core.leave_windowCounts (c : Core) (pc : Word) : (c.leave pc).windowCounts = c.windowCounts := rfl
@[simp] theorem Core.leave_inbox (c : Core) (pc : Word) : (c.leave pc).inbox = c.inbox := rfl
@[simp] theorem Core.leave_unaccepted (c : Core) (pc : Word) : (c.leave pc).unaccepted = c.unaccepted := rfl
@[simp] theorem Core.leave_held (c : Core) (pc : Word) : (c.leave pc).held = c.held := rfl
@[simp] theorem Core.leave_waitFrom (c : Core) (pc : Word) : (c.leave pc).waitFrom = none := rfl
@[simp] theorem Core.leave_waiting (c : Core) (pc : Word) : (c.leave pc).waiting = none := rfl
@[simp] theorem Core.leave_parked (c : Core) (pc : Word) : (c.leave pc).parked = c.parked := rfl
@[simp] theorem Core.leave_reports (c : Core) (pc : Word) : (c.leave pc).reports = c.reports := rfl
@[simp] theorem Core.leave_preempt (c : Core) (pc : Word) : (c.leave pc).preempt = c.preempt := rfl
@[simp] theorem Core.leave_machineChecks (c : Core) (pc : Word) : (c.leave pc).machineChecks = c.machineChecks := rfl
@[simp] theorem Core.leave_imageAddr (c : Core) (pc : Word) : (c.leave pc).imageAddr = c.imageAddr := rfl
@[simp] theorem Core.leave_dfltTable (c : Core) (pc : Word) : (c.leave pc).dfltTable = c.dfltTable := rfl
@[simp] theorem Core.leave_fw (c : Core) (pc : Word) : (c.leave pc).fw = c.fw := rfl
@[simp] theorem Core.leave_early (c : Core) (pc : Word) : (c.leave pc).early = c.early := rfl
@[simp] theorem Core.leave_passed (c : Core) (pc : Word) : (c.leave pc).passed = c.passed := rfl

@[simp] theorem Core.enter_num (c : Core) (epc : Word) (x : Exc) : (c.enter epc x).num = c.num := rfl
@[simp] theorem Core.enter_kind (c : Core) (epc : Word) (x : Exc) : (c.enter epc x).kind = c.kind := rfl
@[simp] theorem Core.enter_run (c : Core) (epc : Word) (x : Exc) : (c.enter epc x).run = c.run := rfl
@[simp] theorem Core.enter_limits (c : Core) (epc : Word) (x : Exc) : (c.enter epc x).limits = c.limits := rfl
@[simp] theorem Core.enter_pc (c : Core) (epc : Word) (x : Exc) : (c.enter epc x).pc = vectorOf c.tvec x.cls := rfl
@[simp] theorem Core.enter_x (c : Core) (epc : Word) (x : Exc) : (c.enter epc x).x = c.x := rfl
@[simp] theorem Core.enter_t (c : Core) (epc : Word) (x : Exc) : (c.enter epc x).t = c.t := rfl
@[simp] theorem Core.enter_a (c : Core) (epc : Word) (x : Exc) : (c.enter epc x).a = c.a := rfl
@[simp] theorem Core.enter_w (c : Core) (epc : Word) (x : Exc) : (c.enter epc x).w = c.w := rfl
@[simp] theorem Core.enter_h (c : Core) (epc : Word) (x : Exc) : (c.enter epc x).h = c.h := rfl
@[simp] theorem Core.enter_q (c : Core) (epc : Word) (x : Exc) : (c.enter epc x).q = c.q := rfl
@[simp] theorem Core.enter_cycle (c : Core) (epc : Word) (x : Exc) : (c.enter epc x).cycle = c.cycle := rfl
@[simp] theorem Core.enter_strand (c : Core) (epc : Word) (x : Exc) : (c.enter epc x).strand = c.strand := rfl
@[simp] theorem Core.enter_lvl (c : Core) (epc : Word) (x : Exc) : (c.enter epc x).lvl = c.lvl := rfl
@[simp] theorem Core.enter_ps (c : Core) (epc : Word) (x : Exc) : (c.enter epc x).ps = enterPs c.ps := rfl
@[simp] theorem Core.enter_seed (c : Core) (epc : Word) (x : Exc) : (c.enter epc x).seed = c.seed := rfl
@[simp] theorem Core.enter_serial (c : Core) (epc : Word) (x : Exc) : (c.enter epc x).serial = c.serial := rfl
@[simp] theorem Core.enter_tvec (c : Core) (epc : Word) (x : Exc) : (c.enter epc x).tvec = c.tvec := rfl
@[simp] theorem Core.enter_epc (c : Core) (epc : Word) (x : Exc) : (c.enter epc x).epc = epc := rfl
@[simp] theorem Core.enter_cause (c : Core) (epc : Word) (x : Exc) : (c.enter epc x).cause = causeWord x := rfl
@[simp] theorem Core.enter_faddr (c : Core) (epc : Word) (x : Exc) : (c.enter epc x).faddr = x.faddr := rfl
@[simp] theorem Core.enter_finfo (c : Core) (epc : Word) (x : Exc) : (c.enter epc x).finfo = x.finfo := rfl
@[simp] theorem Core.enter_sytmo (c : Core) (epc : Word) (x : Exc) : (c.enter epc x).sytmo = c.sytmo := rfl
@[simp] theorem Core.enter_asid (c : Core) (epc : Word) (x : Exc) : (c.enter epc x).asid = c.asid := rfl
@[simp] theorem Core.enter_colour (c : Core) (epc : Word) (x : Exc) : (c.enter epc x).colour = c.colour := rfl
@[simp] theorem Core.enter_dirtyT (c : Core) (epc : Word) (x : Exc) : (c.enter epc x).dirtyT = c.dirtyT := rfl
@[simp] theorem Core.enter_dirtyA (c : Core) (epc : Word) (x : Exc) : (c.enter epc x).dirtyA = c.dirtyA := rfl
@[simp] theorem Core.enter_dirtyW (c : Core) (epc : Word) (x : Exc) : (c.enter epc x).dirtyW = c.dirtyW := rfl
@[simp] theorem Core.enter_scr (c : Core) (epc : Word) (x : Exc) : (c.enter epc x).scr = c.scr := rfl
@[simp] theorem Core.enter_stash (c : Core) (epc : Word) (x : Exc) : (c.enter epc x).stash = c.stash := rfl
@[simp] theorem Core.enter_drain (c : Core) (epc : Word) (x : Exc) : (c.enter epc x).drain = c.drain := rfl
@[simp] theorem Core.enter_sent (c : Core) (epc : Word) (x : Exc) : (c.enter epc x).sent = c.sent := rfl
@[simp] theorem Core.enter_lineBuffer (c : Core) (epc : Word) (x : Exc) : (c.enter epc x).lineBuffer = c.lineBuffer := rfl
@[simp] theorem Core.enter_codeView (c : Core) (epc : Word) (x : Exc) : (c.enter epc x).codeView = c.codeView := rfl
@[simp] theorem Core.enter_tlb (c : Core) (epc : Word) (x : Exc) : (c.enter epc x).tlb = c.tlb := rfl
@[simp] theorem Core.enter_icache (c : Core) (epc : Word) (x : Exc) : (c.enter epc x).icache = c.icache := rfl
@[simp] theorem Core.enter_posts (c : Core) (epc : Word) (x : Exc) : (c.enter epc x).posts = c.posts := rfl
@[simp] theorem Core.enter_copies (c : Core) (epc : Word) (x : Exc) : (c.enter epc x).copies = c.copies := rfl
@[simp] theorem Core.enter_copyTurn (c : Core) (epc : Word) (x : Exc) : (c.enter epc x).copyTurn = c.copyTurn := rfl
@[simp] theorem Core.enter_linkSeq (c : Core) (epc : Word) (x : Exc) : (c.enter epc x).linkSeq = c.linkSeq := rfl
@[simp] theorem Core.enter_windowCounts (c : Core) (epc : Word) (x : Exc) : (c.enter epc x).windowCounts = c.windowCounts := rfl
@[simp] theorem Core.enter_inbox (c : Core) (epc : Word) (x : Exc) : (c.enter epc x).inbox = c.inbox := rfl
@[simp] theorem Core.enter_unaccepted (c : Core) (epc : Word) (x : Exc) : (c.enter epc x).unaccepted = c.unaccepted := rfl
@[simp] theorem Core.enter_held (c : Core) (epc : Word) (x : Exc) : (c.enter epc x).held = c.held := rfl
@[simp] theorem Core.enter_waitFrom (c : Core) (epc : Word) (x : Exc) : (c.enter epc x).waitFrom = none := rfl
@[simp] theorem Core.enter_waiting (c : Core) (epc : Word) (x : Exc) : (c.enter epc x).waiting = none := rfl
@[simp] theorem Core.enter_parked (c : Core) (epc : Word) (x : Exc) : (c.enter epc x).parked = c.parked := rfl
@[simp] theorem Core.enter_reports (c : Core) (epc : Word) (x : Exc) : (c.enter epc x).reports = c.reports := rfl
@[simp] theorem Core.enter_preempt (c : Core) (epc : Word) (x : Exc) : (c.enter epc x).preempt = c.preempt := rfl
@[simp] theorem Core.enter_machineChecks (c : Core) (epc : Word) (x : Exc) : (c.enter epc x).machineChecks = c.machineChecks := rfl
@[simp] theorem Core.enter_imageAddr (c : Core) (epc : Word) (x : Exc) : (c.enter epc x).imageAddr = if x.cls = 13 ∧ x.detail = 0 then some x.faddr else none := rfl
@[simp] theorem Core.enter_dfltTable (c : Core) (epc : Word) (x : Exc) : (c.enter epc x).dfltTable = c.dfltTable := rfl
@[simp] theorem Core.enter_fw (c : Core) (epc : Word) (x : Exc) : (c.enter epc x).fw = if c.dfltTable then x :: c.fw else [] := rfl
@[simp] theorem Core.enter_early (c : Core) (epc : Word) (x : Exc) : (c.enter epc x).early = [] := rfl
@[simp] theorem Core.enter_passed (c : Core) (epc : Word) (x : Exc) : (c.enter epc x).passed = c.passed := rfl

@[simp] theorem State.retire_core (s : State) : (s.retire).core = s.core.leave (nextPc s.core.pc) := rfl
@[simp] theorem State.retire_card (s : State) : (s.retire).card = s.card := rfl
@[simp] theorem State.retire_peer (s : State) : (s.retire).peer = s.peer := rfl
@[simp] theorem State.retire_host (s : State) : (s.retire).host = s.host := rfl
@[simp] theorem State.retire_agenda (s : State) : (s.retire).agenda = s.agenda := rfl
@[simp] theorem State.retire_draws (s : State) : (s.retire).draws = s.draws := rfl

/-- Without instructions that have issued early, a step leaves nothing to count down. -/
theorem State.age_of_early_nil {s : State} (h : s.core.early = []) : s.age = s := by
  obtain ⟨core, _, _, _, _, _⟩ := s
  cases core
  simp only at h
  subst h
  unfold State.age
  split <;> rfl

@[simp] theorem State.hold_peer (s : State) (w : Wait) (l : List Nat) : (s.hold w l).peer = s.peer := rfl
@[simp] theorem State.hold_host (s : State) (w : Wait) (l : List Nat) : (s.hold w l).host = s.host := rfl
@[simp] theorem State.hold_agenda (s : State) (w : Wait) (l : List Nat) : (s.hold w l).agenda = s.agenda := rfl
@[simp] theorem State.hold_draws (s : State) (w : Wait) (l : List Nat) : (s.hold w l).draws = s.draws := rfl

@[simp] theorem State.withStash_card (s : State) (t : Stash) : (s.withStash t).card = s.card := rfl
@[simp] theorem State.withStash_peer (s : State) (t : Stash) : (s.withStash t).peer = s.peer := rfl
@[simp] theorem State.withStash_host (s : State) (t : Stash) : (s.withStash t).host = s.host := rfl
@[simp] theorem State.withStash_agenda (s : State) (t : Stash) : (s.withStash t).agenda = s.agenda := rfl
@[simp] theorem State.withStash_draws (s : State) (t : Stash) : (s.withStash t).draws = s.draws := rfl

@[simp] theorem State.setCluster_core (s : State) (k : Nat) (c : Cluster) : (s.setCluster k c).core = s.core := by unfold State.setCluster; split <;> rfl
@[simp] theorem State.setCluster_peer (s : State) (k : Nat) (c : Cluster) : (s.setCluster k c).peer = s.peer := by unfold State.setCluster; split <;> rfl
@[simp] theorem State.setCluster_host (s : State) (k : Nat) (c : Cluster) : (s.setCluster k c).host = s.host := by unfold State.setCluster; split <;> rfl
@[simp] theorem State.setCluster_agenda (s : State) (k : Nat) (c : Cluster) : (s.setCluster k c).agenda = s.agenda := by unfold State.setCluster; split <;> rfl
@[simp] theorem State.setCluster_draws (s : State) (k : Nat) (c : Cluster) : (s.setCluster k c).draws = s.draws := by unfold State.setCluster; split <;> rfl

end Sys2Proof.Machine
end

