-- ==== Sys2Proof/Laws/Regs.lean ====
section
/-! SUPPORT. Reads after writes of the register files, and how an instruction that only writes registers ends. -/

namespace Sys2Proof.Machine

@[simp] theorem Core.xr_zero (c : Core) : c.xr 0#6 = 0#64 := rfl

theorem Core.xr_setX (c : Core) (r q : BitVec 6) (v : Word) : (c.setX q v).xr r = if r = q ∧ r ≠ 0#6 then v else c.xr r := by
  unfold Core.xr Core.setX
  by_cases h0 : r = 0#6
  · simp [h0]
  · by_cases hq : q = 0#6
    · have : r ≠ q := fun h => h0 (h.trans hq)
      simp [h0, hq]
    · by_cases h : r = q
      · subst h; simp [h0]
      · have : q.toNat ≠ r.toNat := fun e => h (BitVec.eq_of_toNat_eq e.symm)
        simp [h0, hq, h, Vector.getElem_set_ne _ _ this]

@[simp] theorem Core.xr_leave (c : Core) (pc : Word) (r : BitVec 6) : (c.leave pc).xr r = c.xr r := rfl
@[simp] theorem Core.xr_orFlags (c : Core) (f : BitVec 5) (r : BitVec 6) : (c.orFlags f).xr r = c.xr r := rfl
@[simp] theorem Core.xr_setT (c : Core) (q : BitVec 5) (v : Tile) (r : BitVec 6) : (c.setT q v).xr r = c.xr r := rfl
@[simp] theorem Core.xr_setA (c : Core) (q : BitVec 3) (v : Acc) (r : BitVec 6) : (c.setA q v).xr r = c.xr r := rfl
@[simp] theorem Core.xr_setQ (c : Core) (q : BitVec 4) (v : Word) (r : BitVec 6) : (c.setQ q v).xr r = c.xr r := rfl

theorem Core.tr_setT (c : Core) (r q : BitVec 5) (v : Tile) : (c.setT q v).tr r = if r = q then v else c.tr r := by
  unfold Core.tr Core.setT
  by_cases h : r = q
  · subst h; simp
  · have : q.toNat ≠ r.toNat := fun e => h (BitVec.eq_of_toNat_eq e.symm)
    simp [h, Vector.getElem_set_ne _ _ this]

theorem Core.ar_setA (c : Core) (r q : BitVec 3) (v : Acc) : (c.setA q v).ar r = if r = q then v else c.ar r := by
  unfold Core.ar Core.setA
  by_cases h : r = q
  · subst h; simp
  · have : q.toNat ≠ r.toNat := fun e => h (BitVec.eq_of_toNat_eq e.symm)
    simp [h, Vector.getElem_set_ne _ _ this]

theorem Core.wr_setW (c : Core) (r q : BitVec 2) (v : Pin) : (c.setW q v).wr r = if r = q then v else c.wr r := by
  unfold Core.wr Core.setW
  by_cases h : r = q
  · subst h; simp
  · have : q.toNat ≠ r.toNat := fun e => h (BitVec.eq_of_toNat_eq e.symm)
    simp [h, Vector.getElem_set_ne _ _ this]

theorem Core.qr_setQ (c : Core) (r q : BitVec 4) (v : Word) : (c.setQ q v).qr r = if r = q then v else c.qr r := by
  unfold Core.qr Core.setQ
  by_cases h : r = q
  · subst h; simp
  · have : q.toNat ≠ r.toNat := fun e => h (BitVec.eq_of_toNat_eq e.symm)
    simp [h, Vector.getElem_set_ne _ _ this]

/-- An instruction that computes v and raises fl, none of it enabled, writes xd. -/
theorem State.writesX_finish (s : State) (xd : BitVec 6) (v : Word) (fl : BitVec 5) :
    ∃ t, s.finishCore (.ok ((s.core.orFlags fl).setX xd v)) = .next t ∧ s.WritesX t xd v fl := by
  refine ⟨_, rfl, fun r => ?_, ?_, ?_⟩
  · simp [Core.xr_setX]
  · simp
  · unfold Core.setX; split <;> rfl

/-- The same for an instruction that raises nothing. -/
theorem State.writesX_plain (s : State) (xd : BitVec 6) (v : Word) :
    ∃ t, s.finishCore (.ok (s.core.setX xd v)) = .next t ∧ s.WritesX t xd v 0#5 := by
  refine ⟨_, rfl, fun r => ?_, ?_, ?_⟩
  · simp [Core.xr_setX]
  · simp
  · unfold Core.setX; split <;> rfl

end Sys2Proof.Machine
end

