-- ==== Sys2Proof/Laws/Elements.lean ====
section
/-! SUPPORT. Tiles as tables of elements: a shaped tile, an elementwise operation and the exceptions of its elements, by index. -/

namespace Sys2Proof.Machine

/-- A table of rows and columns. -/
def table {α : Type} (rows cols : Nat) (f : Nat → Nat → α) : List (List α) :=
  (List.range rows).map fun m => (List.range cols).map fun n => f m n

theorem tileOf_eq (rows rb : Nat) (fmt : BitVec 5) (q : BitVec 4) (f : Nat → Nat → Nat) :
    tileOf rows rb fmt q f = mkTile rows rb fmt q (table rows (elemCount fmt rb) f) := rfl

theorem chunksGo_length {α : Type} (n : Nat) (hn : 0 < n) :
    ∀ (k : Nat) (l : List α) (j : Nat), l.length = n * j → j ≤ k → (chunksGo n k l).length = j := by
  intro k
  induction k with
  | zero => intro l j h hj; have : j = 0 := by omega
            subst this; simp [chunksGo]
  | succ k ih =>
    intro l j h hj
    cases l with
    | nil =>
      have : j = 0 := by
        simp at h; omega
      subst this; simp [chunksGo]
    | cons a l =>
      cases j with
      | zero => simp at h
      | succ j =>
        simp only [chunksGo, List.length_cons]
        rw [ih _ j _ (by omega)]
        simp only [List.length_drop, h]
        rw [Nat.mul_succ]; omega

theorem chunks_length {α : Type} (n : Nat) (hn : 0 < n) (l : List α) (j : Nat) (h : l.length = n * j) : (chunks n l).length = j := by
  apply chunksGo_length n hn _ _ _ h
  rw [h]; exact Nat.le_mul_of_pos_left _ hn

theorem elemBits_cases (fmt : BitVec 5) :
    (fmt = 7#5 ∧ elemBits fmt = 4) ∨
      (fmt ≠ 7#5 ∧ elemBits fmt = 8 * elemBytes fmt ∧ 0 < elemBytes fmt ∧ (fmt = 13#5 → elemBytes fmt = 8)) := by
  revert fmt; decide

theorem rowElems_length (fmt : BitVec 5) (row : List Byte) (rb : Nat) (h : row.length = rb) (hm : rb % elemBytes fmt = 0) :
    (rowElems fmt row).length = elemCount fmt rb := by
  rcases elemBits_cases fmt with ⟨hf, hb⟩ | ⟨hf, hb, hp, h13⟩
  · subst hf
    have : ∀ l : List Byte, (l.flatMap fun b => [b.toNat % 16, b.toNat / 16]).length = 2 * l.length := by
      intro l; induction l with
      | nil => rfl
      | cons a l ih => simp [ih]; omega
    rw [show rowElems 7#5 row = row.flatMap fun b => [b.toNat % 16, b.toNat / 16] from rfl, this, h]
    simp [elemCount, hb]; omega
  · obtain ⟨j, hj⟩ := Nat.dvd_of_mod_eq_zero hm
    have hc : elemCount fmt rb = j := by
      rw [elemCount, hb, hj, show elemBytes fmt * j * 8 = 8 * elemBytes fmt * j from by ring]
      exact Nat.mul_div_cancel_left _ (by omega)
    rw [hc]
    unfold rowElems
    simp only [hf, if_false]
    by_cases h2 : fmt = 13#5
    · simp only [h2, if_true, List.length_map]
      exact chunks_length 8 (by omega) row j (by rw [h, hj, h13 h2])
    · simp only [h2, if_false, List.length_map]
      exact chunks_length _ hp row j (by rw [h, hj])

theorem list_eq_range {α : Type} (d : α) (l : List α) (n : Nat) (h : l.length = n) : l = (List.range n).map fun i => l.getD i d := by
  apply List.ext_getElem
  · simp [h]
  · intro i h1 h2
    simp at h2
    simp [List.getD_eq_getElem?_getD, List.getElem?_eq_getElem h1]

theorem Tile.elems_length (t : Tile) : t.elems.length = t.data.length := by simp [Tile.elems]

theorem Tile.row_length (t : Tile) (h : t.Shaped) (m : Nat) (hm : m < t.rows) : (t.elems.getD m []).length = t.count := by
  obtain ⟨h1, h2, h3⟩ := h
  have hl : m < t.data.length := by omega
  have : t.elems.getD m [] = rowElems t.fmt (t.data[m]) := by
    simp [Tile.elems, List.getD_eq_getElem?_getD, hl]
  rw [this]
  exact rowElems_length _ _ _ (h2 _ (List.getElem_mem hl)) h3

/-- A shaped tile is the table of its elements. -/
theorem Tile.elems_eq (t : Tile) (h : t.Shaped) : t.elems = table t.rows t.count t.el := by
  conv_lhs => rw [list_eq_range [] t.elems t.rows (by rw [t.elems_length, h.1])]
  unfold table
  apply List.map_congr_left
  intro m hm
  simp at hm
  exact list_eq_range 0 _ _ (t.row_length h m hm)

theorem mapRow3_table (f : Nat → Nat → Nat → Nat → ElemOut) (cols : Nat) :
    ∀ (e k : Nat) (a b c : Nat → Nat), mapRow3 f e ((List.range' k cols).map a) ((List.range' k cols).map b) ((List.range' k cols).map c) =
      (List.range' k cols).map fun n => f (e + (n - k)) (a n) (b n) (c n) := by
  induction cols with
  | zero => intros; rfl
  | succ cols ih =>
    intro e k a b c
    simp only [List.range'_succ, List.map_cons, mapRow3, Nat.sub_self, Nat.add_zero]
    rw [ih]
    congr 1
    apply List.map_congr_left
    intro n hn
    simp at hn
    rw [show e + 1 + (n - (k + 1)) = e + (n - k) by omega]

theorem mapTile3_range (f : Nat → Nat → Nat → Nat → ElemOut) (cols : Nat) (a b c : Nat → Nat → Nat) (rows : Nat) :
    ∀ k, mapTile3 f k ((List.range' k rows).map fun m => (List.range cols).map (a m)) ((List.range' k rows).map fun m => (List.range cols).map (b m))
        ((List.range' k rows).map fun m => (List.range cols).map (c m)) =
      (List.range' k rows).map fun m => (List.range cols).map fun n => f (256 * m + n) (a m n) (b m n) (c m n) := by
  induction rows with
  | zero => intros; rfl
  | succ rows ih =>
    intro k
    simp only [List.range'_succ, List.map_cons, mapTile3]
    rw [ih]
    congr 1
    have := mapRow3_table f cols (256 * k) 0 (a k) (b k) (c k)
    simp only [List.range_eq_range']
    rw [this]
    simp

/-- An elementwise operation on tables, by index. -/
theorem mapTile3_table (f : Nat → Nat → Nat → Nat → ElemOut) (rows cols : Nat) (a b c : Nat → Nat → Nat) :
    mapTile3 f 0 (table rows cols a) (table rows cols b) (table rows cols c) =
      table rows cols fun m n => f (256 * m + n) (a m n) (b m n) (c m n) := by
  have := mapTile3_range f cols a b c rows 0
  simpa [table, List.range_eq_range'] using this

theorem codesOf_table (rows cols : Nat) (g : Nat → Nat → ElemOut) : codesOf (table rows cols g) = table rows cols fun m n => (g m n).1 := by
  simp [codesOf, table, Function.comp_def]

/-- The second operand of a form is the table of its elements. -/
theorem operandB_table (s : State) (form : BitVec 3) (ta tb : BitVec 5) (xs : BitVec 6) (h : operandAllowed s form ta tb) :
    operandB (formOf form) (s.core.tr ta) (s.core.tr tb) (s.core.xr xs) =
      table (s.core.tr ta).rows (s.core.tr ta).count (operandEl s form ta tb xs) := by
  rcases h with h | ⟨hr, hf, hs, h⟩
  · subst h
    simp only [formOf, operandB, table, operandEl, BitVec.toNat_ofNat]
    simp [List.map_const']
  · have hc : ∀ {r : Nat}, (s.core.tr tb).rowbytes = (s.core.tr ta).rowbytes → (s.core.tr tb).count = (s.core.tr ta).count := by
      intro _ hb; simp [Tile.count, hf, hb]
    rcases h with ⟨h, hrows, hb⟩ | ⟨h, hb⟩ | ⟨h, hrows⟩
    · subst h
      have hb := hc (r := 0) hb
      rw [show operandB (formOf 0#3) (s.core.tr ta) (s.core.tr tb) (s.core.xr xs) = (s.core.tr tb).elems from rfl, Tile.elems_eq _ hs, hrows, hb]
      rfl
    · subst h
      have hb := hc (r := 0) hb
      rw [show operandB (formOf 2#3) (s.core.tr ta) (s.core.tr tb) (s.core.xr xs) =
        List.replicate (s.core.tr ta).rows ((s.core.tr tb).elems.headD []) from rfl]
      have hrow : (s.core.tr tb).elems.headD [] = (List.range (s.core.tr ta).count).map fun n => (s.core.tr tb).el 0 n := by
        rw [← hb]
        have := list_eq_range 0 _ _ (Tile.row_length _ hs 0 (by omega))
        rw [show (s.core.tr tb).elems.headD [] = (s.core.tr tb).elems.getD 0 [] by cases (s.core.tr tb).elems <;> rfl]
        exact this
      rw [hrow]
      simp only [table, operandEl, BitVec.toNat_ofNat]
      simp [List.map_const']
    · subst h
      rw [show operandB (formOf 3#3) (s.core.tr ta) (s.core.tr tb) (s.core.xr xs) =
        (s.core.tr tb).elems.map (fun r => List.replicate (s.core.tr ta).count (r.headD 0)) from rfl]
      rw [Tile.elems_eq _ hs, hrows]
      simp only [table, operandEl, List.map_map]
      apply List.map_congr_left
      intro m hm
      have hpos : 0 < (s.core.tr tb).count ∨ (s.core.tr tb).count = 0 := by omega
      simp only [Function.comp]
      have hh : ((List.range (s.core.tr tb).count).map fun n => (s.core.tr tb).el m n).headD 0 = (s.core.tr tb).el m 0 := by
        rcases hpos with hp | hp
        · obtain ⟨k, hk⟩ := Nat.exists_eq_succ_of_ne_zero (Nat.pos_iff_ne_zero.mp hp)
          rw [hk, List.range_succ_eq_map]; rfl
        · rw [hp]
          have hl := Tile.row_length _ hs m (by simp at hm; omega)
          rw [hp] at hl
          rw [Tile.el, List.length_eq_zero_iff.mp hl]
          rfl
      rw [hh]
      simp [List.map_const']

/-! ### Exceptions of the elements -/

theorem mem_eventsRow (p : Nat × FpFlags) : ∀ (row : List ElemOut) (e : Nat),
    p ∈ eventsRow e row ↔ ∃ i, ∃ h : i < row.length, p = (e + i, row[i].2) ∧ row[i].2 ≠ 0#5 := by
  intro row
  induction row with
  | nil => intro e; simp [eventsRow]
  | cons x row ih =>
    intro e
    obtain ⟨c, f⟩ := x
    have hstep : (∃ i, ∃ h : i < ((c, f) :: row).length, p = (e + i, ((c, f) :: row)[i].2) ∧ ((c, f) :: row)[i].2 ≠ 0#5) ↔
        (p = (e, f) ∧ f ≠ 0#5) ∨ ∃ i, ∃ h : i < row.length, p = (e + 1 + i, row[i].2) ∧ row[i].2 ≠ 0#5 := by
      constructor
      · rintro ⟨i, h, hp, hn⟩
        cases i with
        | zero => exact .inl ⟨hp, hn⟩
        | succ i => exact .inr ⟨i, by simpa using h, by simpa [Nat.add_assoc, Nat.add_comm 1] using hp, by simpa using hn⟩
      · rintro (⟨hp, hn⟩ | ⟨i, h, hp, hn⟩)
        · exact ⟨0, by simp, hp, hn⟩
        · exact ⟨i + 1, by simpa using h, by simpa [Nat.add_assoc, Nat.add_comm 1] using hp, by simpa using hn⟩
    rw [hstep, ← ih]
    by_cases hf : f = 0#5
    · simp [eventsRow, hf]
    · simp [eventsRow, hf]

theorem mem_eventsFrom (p : Nat × FpFlags) : ∀ (r : List (List ElemOut)) (m : Nat),
    p ∈ eventsFrom m r ↔ ∃ k, ∃ h : k < r.length, p ∈ eventsRow (256 * (m + k)) r[k] := by
  intro r
  induction r with
  | nil => intro m; simp [eventsFrom]
  | cons x r ih =>
    intro m
    simp only [eventsFrom, List.mem_append, ih]
    constructor
    · rintro (h | ⟨k, hk, h⟩)
      · exact ⟨0, by simp, h⟩
      · exact ⟨k + 1, by simpa using hk, by simpa [Nat.add_assoc, Nat.add_comm 1] using h⟩
    · rintro ⟨k, hk, h⟩
      cases k with
      | zero => exact .inl h
      | succ k => exact .inr ⟨k, by simpa using hk, by simpa [Nat.add_assoc, Nat.add_comm 1] using h⟩

/-- The elements of a table that raise something. -/
theorem mem_eventsOf_table (rows cols : Nat) (g : Nat → Nat → ElemOut) (p : Nat × FpFlags) :
    p ∈ eventsOf (table rows cols g) ↔ ∃ m < rows, ∃ n < cols, p = (256 * m + n, (g m n).2) ∧ (g m n).2 ≠ 0#5 := by
  unfold eventsOf
  rw [mem_eventsFrom]
  constructor
  · rintro ⟨k, hk, h⟩
    rw [mem_eventsRow] at h
    obtain ⟨i, hi, hp, hn⟩ := h
    simp [table] at hk hi hp hn
    exact ⟨k, hk, i, hi, hp, hn⟩
  · rintro ⟨m, hm, n, hn, hp, hz⟩
    refine ⟨m, by simpa [table] using hm, (mem_eventsRow _ _ _).mpr ⟨n, by simpa [table] using hn, ?_, ?_⟩⟩
    · simpa [table] using hp
    · simpa [table] using hz

theorem getLsbD_allFlags (k : Nat) : ∀ (l : List (Nat × FpFlags)) (a : FpFlags),
    (l.foldl (fun f e => f ||| e.2) a).getLsbD k = true ↔ a.getLsbD k = true ∨ ∃ e ∈ l, e.2.getLsbD k = true := by
  intro l
  induction l with
  | nil => intro a; simp
  | cons x l ih =>
    intro a
    rw [List.foldl_cons, ih]
    simp [or_assoc]

/-- The flags of a table are those that some element raises. -/
theorem allFlags_table (rows cols : Nat) (g : Nat → Nat → ElemOut) (k : Nat) :
    (allFlags (eventsOf (table rows cols g))).getLsbD k = true ↔ ∃ m < rows, ∃ n < cols, (g m n).2.getLsbD k = true := by
  unfold allFlags
  rw [getLsbD_allFlags]
  constructor
  · rintro (h | ⟨e, he, h⟩)
    · simp at h
    · obtain ⟨m, hm, n, hn, rfl, -⟩ := (mem_eventsOf_table _ _ _ _).mp he
      exact ⟨m, hm, n, hn, h⟩
  · rintro ⟨m, hm, n, hn, h⟩
    refine .inr ⟨_, (mem_eventsOf_table _ _ _ _).mpr ⟨m, hm, n, hn, rfl, ?_⟩, h⟩
    intro hz; rw [hz] at h; simp at h

theorem find?_none_of_disjoint (trap : BitVec 5) (events : List (Nat × FpFlags)) (b : Nat) (hb : trap.getLsbD b = true)
    (h : ∀ e ∈ events, e.2 &&& trap = 0#5) : events.find? (fun e => e.2.getLsbD b) = none := by
  rw [List.find?_eq_none]
  intro e he hh
  have := congrArg (fun v : BitVec 5 => v.getLsbD b) (h e he)
  simp [hb, hh] at this

/-- No enabled exception: no fault. -/
theorem enabledFault_none (trap : BitVec 5) (events : List (Nat × FpFlags)) (h : ∀ e ∈ events, e.2 &&& trap = 0#5) :
    enabledFault trap events = none := by
  unfold enabledFault
  have hf : ∀ (b detail : Nat),
      (if trap.getLsbD b then (events.find? fun e => e.2.getLsbD b).map fun e => (detail, e.1) else none) = none := by
    intro b detail
    by_cases hb : trap.getLsbD b = true
    · simp [hb, find?_none_of_disjoint trap events b hb h]
    · simp [hb]
  simp only [hf, Option.orElse_none]

/-- An elementwise result, none of whose exceptions is enabled, is written with all of them set. -/
theorem Core.finishTile_table (c : Core) (op : BitVec 8) (td : BitVec 5) (rows rb : Nat) (fmt : BitVec 5) (quant : BitVec 4) (rnd : BitVec 2)
    (g : Nat → Nat → ElemOut) (h : ∀ m < rows, ∀ n < elemCount fmt rb, (g m n).2 &&& c.fptrap = 0#5) :
    c.finishTile op td rows rb fmt quant rnd (table rows (elemCount fmt rb) g) =
      .ok (((c.orFlags (allFlags (eventsOf (table rows (elemCount fmt rb) g)))).setT td (tileOf rows rb fmt quant fun m n => (g m n).1)).countSr
        (rnd == 1#2)) := by
  have hn : enabledFault c.fptrap (eventsOf (table rows (elemCount fmt rb) g)) = none := by
    apply enabledFault_none
    intro e he
    obtain ⟨m, hm, n, hn, rfl, -⟩ := (mem_eventsOf_table _ _ _ _).mp he
    exact h m hm n hn
  unfold Core.finishTile Core.settle
  rw [hn, codesOf_table, tileOf_eq]
  rfl

/-- The end of an instruction that writes a tile. -/
theorem State.writesT_finish (s : State) (td : BitVec 5) (v : Tile) (fl : BitVec 5) (sr : Bool) :
    ∃ t, s.finishCore (.ok (((s.core.orFlags fl).setT td v).countSr sr)) = .next t ∧ s.WritesT t td v fl sr := by
  refine ⟨_, rfl, fun r => ?_, ?_, ?_, ?_, ?_⟩
  · have : ∀ (c : Core) b pc, ((c.countSr b).leave pc).tr r = c.tr r := by intro c b pc; cases b <;> rfl
    rw [this, Core.tr_setT]; rfl
  · simp
  · simp
  · cases sr <;> simp [Core.countSr]
  · cases sr <;> simp [Core.countSr, Core.leave, Core.setT, Core.orFlags]

theorem State.writesT_plain (s : State) (td : BitVec 5) (v : Tile) :
    ∃ t, s.finishCore (.ok (s.core.setT td v)) = .next t ∧ s.WritesT t td v 0#5 false := by
  refine ⟨_, rfl, fun r => ?_, ?_, ?_, ?_, ?_⟩
  · have : ∀ (c : Core) pc, (c.leave pc).tr r = c.tr r := by intro c pc; rfl
    rw [this, Core.tr_setT]
  · simp
  · simp
  · simp
  · simp [Core.leave, Core.setT]

/-- A vector instruction whose meaning ends in `finishTile` of a table writes td when no enabled exception stands, the first clause of
`vectorWrites`. -/
theorem vectorWrites_of (s : State) (i : Instr) (op : BitVec 8) (td : BitVec 5) (rows rb : Nat) (fmt : BitVec 5) (quant : BitVec 4)
    (rnd : BitVec 2) (g : Nat → Nat → ElemOut)
    (h : exec i s = s.finishCore (s.core.finishTile op td rows rb fmt quant rnd (table rows (elemCount fmt rb) g))) :
    (∀ m < rows, ∀ n < elemCount fmt rb, (g m n).2 &&& s.core.fptrap = 0#5) →
      ∃ t fl, exec i s = .next t ∧
        (∀ k, fl.getLsbD k = true ↔ ∃ m < rows, ∃ n < elemCount fmt rb, (g m n).2.getLsbD k = true) ∧
        s.WritesT t td (tileOf rows rb fmt quant fun m n => (g m n).1) fl (rnd == 1#2) := by
  intro hg
  rw [Core.finishTile_table _ _ _ _ _ _ _ _ _ hg] at h
  obtain ⟨t, ht, hw⟩ := s.writesT_finish td (tileOf rows rb fmt quant fun m n => (g m n).1)
    (allFlags (eventsOf (table rows (elemCount fmt rb) g))) (rnd == 1#2)
  exact ⟨t, _, h.trans ht, allFlags_table _ _ _, hw⟩

end Sys2Proof.Machine
end

