-- ==== Sys2Proof/Laws/Encoding.lean ====
section
/-! SUPPORT. Reading a field of a word that is put together from fields. -/

namespace Sys2Proof

/-- A field of two words joined by "or" is the fields of both joined. -/
theorem bits_or (lo n : Nat) (a b : InstrWord) : bits lo n (a ||| b) = bits lo n a ||| bits lo n b := by
  apply BitVec.eq_of_getLsbD_eq
  intro i hi
  simp [bits, hi]

/-- The bits of a word that holds one field. -/
theorem getLsbD_put (l i : Nat) {m : Nat} (v : BitVec m) (h : l + m ≤ 96) :
    (put l v).getLsbD i = (decide (l ≤ i) && v.getLsbD (i - l)) := by
  simp only [put, BitVec.getLsbD_shiftLeft, BitVec.getLsbD_setWidth]
  by_cases h1 : l ≤ i
  · by_cases h2 : i - l < m
    · have h3 : i < 96 := by omega
      have h4 : ¬ i < l := by omega
      have h5 : i - l < 96 := by omega
      simp [h1, h3, h4, h5]
    · simp [BitVec.getLsbD_of_ge v (i - l) (by omega)]
  · have h4 : i < l := by omega
    simp [h1, h4]

/-- A field is read back as it was put. -/
theorem bits_put_same (lo n : Nat) (v : BitVec n) (h : lo + n ≤ 96) : bits lo n (put lo v) = v := by
  apply BitVec.eq_of_getLsbD_eq
  intro i hi
  rw [bits, BitVec.getLsbD_extractLsb', getLsbD_put lo _ v h]
  simp [hi]

/-- Part of a field is that part of the value. -/
theorem bits_put_sub (lo n l m : Nat) (v : BitVec m) (h1 : l ≤ lo) (_h2 : lo + n ≤ l + m) (h : l + m ≤ 96) :
    bits lo n (put l v) = v.extractLsb' (lo - l) n := by
  apply BitVec.eq_of_getLsbD_eq
  intro i hi
  rw [bits, BitVec.getLsbD_extractLsb', getLsbD_put l _ v h, BitVec.getLsbD_extractLsb']
  have h3 : l ≤ lo + i := by omega
  have h4 : lo + i - l = lo - l + i := by omega
  simp [hi, h3, h4]

/-- Bits beside a field are 0. -/
theorem bits_put_disj (lo n l m : Nat) (v : BitVec m) (h1 : lo + n ≤ l ∨ l + m ≤ lo) (h : l + m ≤ 96) :
    bits lo n (put l v) = 0#n := by
  apply BitVec.eq_of_getLsbD_eq
  intro i hi
  rw [bits, BitVec.getLsbD_extractLsb', getLsbD_put l _ v h]
  by_cases h3 : l ≤ lo + i
  · simp [BitVec.getLsbD_of_ge v (lo + i - l) (by omega)]
  · simp [h3]

end Sys2Proof
end

