-- ==== Sys2Proof/Laws/Vector.lean ====
section
/-! SUPPORT. The vector instructions where their checks pass: one- and two-operand elementwise instructions as tables. -/

namespace Sys2Proof.Machine

theorem need_true (x : Exc) : need true x = .ok () := rfl

theorem needTiles_ok (s : State) (op : BitVec 8) (ts : List (BitVec 5)) (h : tilesAllowed s ts) : s.core.needTiles op ts = .ok () := by
  unfold Core.needTiles
  have : (ts.all fun t => s.core.within t.toNat s.core.limits.tiles) = true := by
    rw [List.all_eq_true]
    intro t ht
    unfold Core.within
    rcases h.2 with h | h
    · simp [h]
    · simp [h t ht]
  rw [this]; rfl

theorem needEngine_ok (s : State) (op : BitVec 8) (e : Nat) (h : s.core.kind ≠ .command) : s.core.needEngine op e = .ok () := by
  unfold Core.needEngine
  have : (s.core.kind != .command) = true := by simpa using h
  rw [this]; rfl

theorem needTile_ok (op : BitVec 8) (role : Nat) (reg : BitVec 5) (t : Tile) (accept : BitVec 5 → Bool) (h : t.rows ≠ 0)
    (ha : accept t.fmt = true) : needTile op role reg t accept = .ok () := by
  unfold needTile
  have : (t.rows != 0) = true := by simpa using h
  rw [this, ha]; rfl

theorem needFloatRnd_ok (op : BitVec 8) (role : Nat) (reg fmt : BitVec 5) (rnd : BitVec 2) (inf : Bool)
    (h : (floatOf fmt).isSome = true ∨ (rnd = 0#2 ∧ inf = false)) : needFloatRnd op role reg fmt rnd inf = .ok () := by
  unfold needFloatRnd
  rcases h with h | ⟨rfl, rfl⟩
  · rw [h]; rfl
  · simp [need_true]

theorem needForm_ok (s : State) (op : BitVec 8) (role : Nat) (reg : BitVec 5) (form : BitVec 3) (ta tb : BitVec 5) (h : operandAllowed s form ta tb) :
    needForm op role reg (formOf form) (s.core.tr ta) (s.core.tr tb) = .ok () := by
  rcases h with h | ⟨_, _, _, ⟨h, h1, h2⟩ | ⟨h, h1⟩ | ⟨h, h1⟩⟩ <;> subst h
  · rfl
  · unfold needForm; simp only [h1, h2, beq_self_eq_true, need_true]; rfl
  · unfold needForm; simp only [h1, beq_self_eq_true, need_true]; rfl
  · unfold needForm; simp only [h1, beq_self_eq_true, need_true]; rfl

theorem formOf_xs (form : BitVec 3) : formOf form = .xs ↔ form = 1#3 := by revert form; decide

theorem checkBinary_ok (s : State) (op : BitVec 8) (td ta tb : BitVec 5) (form : BitVec 3) (accept : BitVec 5 → Bool) (rnd : BitVec 2) (inf : Bool)
    (ht : tilesAllowed s (formTiles form [td, ta] tb)) (hr : (s.core.tr ta).rows ≠ 0) (ha : accept (s.core.tr ta).fmt = true)
    (hf : (floatOf (s.core.tr ta).fmt).isSome = true ∨ (rnd = 0#2 ∧ inf = false)) (ho : operandAllowed s form ta tb) :
    s.core.checkBinary op td ta tb form accept rnd inf = .ok () := by
  unfold Core.checkBinary
  have h1 : (if formOf form = .xs then [td, ta] else [td, ta, tb]) = formTiles form [td, ta] tb := by
    unfold formTiles
    by_cases h : form = 1#3
    · simp [h, (formOf_xs 1#3).mpr rfl]
    · have : formOf form ≠ .xs := fun e => h ((formOf_xs form).mp e)
      simp [h, this]
  rw [h1, needTiles_ok s op _ ht, needEngine_ok s op 4 ht.1, needTile_ok op 1 ta _ accept hr ha, needFloatRnd_ok op 1 ta _ rnd inf hf]
  by_cases hx : formOf form = .xs
  · simp [hx, bind, Except.bind, pure, Except.pure]
  · have hne : form ≠ 1#3 := fun e => hx ((formOf_xs form).mpr e)
    rcases ho with h | ⟨hbr, hbf, hbs, hs⟩
    · exact absurd h hne
    · have hn := needForm_ok s op 2 tb form ta tb (.inr ⟨hbr, hbf, hbs, hs⟩)
      rw [needTile_ok op 2 tb _ accept hbr (by rw [hbf]; exact ha), hn]
      simp [hx, hbf, need_true, bind, Except.bind]

/-- A two-operand elementwise instruction whose checks pass, by index. -/
theorem binary_table (s : State) (op : BitVec 8) (td ta tb : BitVec 5) (xs : BitVec 6) (form : BitVec 3) (accept : BitVec 5 → Bool)
    (rnd : BitVec 2) (inf : Bool) (f : Nat → Nat → Nat → ElemOut)
    (ht : tilesAllowed s (formTiles form [td, ta] tb)) (hr : (s.core.tr ta).rows ≠ 0) (hs : (s.core.tr ta).Shaped)
    (ha : accept (s.core.tr ta).fmt = true) (hf : (floatOf (s.core.tr ta).fmt).isSome = true ∨ (rnd = 0#2 ∧ inf = false))
    (ho : operandAllowed s form ta tb) :
    s.core.binary op td ta tb xs form accept rnd inf f =
      s.core.finishTile op td (s.core.tr ta).rows (s.core.tr ta).rowbytes (s.core.tr ta).fmt (s.core.tr ta).quant rnd
        (table (s.core.tr ta).rows (s.core.tr ta).count fun m n => f (256 * m + n) ((s.core.tr ta).el m n) (operandEl s form ta tb xs m n)) := by
  unfold Core.binary
  rw [checkBinary_ok s op td ta tb form accept rnd inf ht hr ha hf ho]
  simp only [bind, Except.bind]
  rw [operandB_table s form ta tb xs ho, Tile.elems_eq _ hs, mapTile3_table]

/-- A one-operand elementwise instruction whose checks pass, by index. -/
theorem unary_table (s : State) (op : BitVec 8) (td ta : BitVec 5) (accept : BitVec 5 → Bool) (rnd : BitVec 2) (inf : Bool)
    (f : Nat → Nat → ElemOut) (ht : tilesAllowed s [td, ta]) (hr : (s.core.tr ta).rows ≠ 0) (hs : (s.core.tr ta).Shaped)
    (ha : accept (s.core.tr ta).fmt = true) (hf : (floatOf (s.core.tr ta).fmt).isSome = true ∨ (rnd = 0#2 ∧ inf = false)) :
    s.core.unary op td ta accept rnd inf f =
      s.core.finishTile op td (s.core.tr ta).rows (s.core.tr ta).rowbytes (s.core.tr ta).fmt (s.core.tr ta).quant rnd
        (table (s.core.tr ta).rows (s.core.tr ta).count fun m n => f (256 * m + n) ((s.core.tr ta).el m n)) := by
  unfold Core.unary
  rw [needTiles_ok s op _ ht, needEngine_ok s op 4 ht.1, needTile_ok op 1 ta _ accept hr ha, needFloatRnd_ok op 1 ta _ rnd inf hf]
  simp only [bind, Except.bind]
  rw [Tile.elems_eq _ hs, mapTile3_table]

end Sys2Proof.Machine
end

