-- ==== Sys2Proof/Tests/Slice0.lean ====
section
/-! SUPPORT. Tests of the model's author: what the checks of WellFormed refuse, words of the spec decoded, small steps, and for every
statement a state and operands that meet its hypotheses. -/

namespace Sys2Proof.Tests

open Sys2Proof.Machine

/-- A compute core with a running strand under ASID 1, colour 0, whose every declared limit is the largest. -/
def core0 : Core := { Core.reset 0 .compute with run := .running, asid := 1#12, limits := ⟨32, 8, 4, 8, 256⟩ }

/-- A card on which ASID 1 has the first 2 GiB of its addresses at the first 2 GiB of HBM, and the shared region its first 2 GiB at the next
ones, for every colour, and ASID 1 its third 2 GiB at
the peer; each with every permission but sup. -/
def card0 : Card := { Card.reset 0 [] with
  hbm := [(0x8000, 0x01#8), (0x8002, 0x02#8), (0x1F800, 0x01#8), (0x1F801, 0x20#8), (0x1F802, 0x02#8), (0x20000, 0x1F#8), (0x20010, 0x1F#8), (0x20015, 0x40#8),
    (0x22000, 0x1F#8), (0x22003, 0x80#8), (0x22006, 0xFF#8), (0x22007, 0xFF#8),
    (287998935040, 0x01#8), (287998935041, 0x80#8), (287998935042, 0x01#8), (287998935056, 0x01#8), (287998935057, 0x80#8)] }

/-- Bytes of HBM above the tables of card0, below the firmware's granules. -/
def withBytes (m l : Memory) : Memory :=
  m.takeWhile (fun c => decide (c.1 < 2 ^ 32)) ++ l ++ m.dropWhile (fun c => decide (c.1 < 2 ^ 32))

/-- One running strand. -/
def s0 : State := ⟨core0, card0, Card.reset 1 [], ⟨[], [], []⟩, [], 0⟩

/-- A register of the strand. -/
def withX (s : State) (r : BitVec 6) (v : Word) : State := { s with core := s.core.setX r v }
def withT (s : State) (r : BitVec 5) (t : Tile) : State := { s with core := s.core.setT r t }

/-- Registers x1 = 7, x2 = −3, x3 = 0. -/
def s1 : State := withX (withX s0 1#6 7#64) 2#6 (-3#64)

/-! ### Witnesses: a state and operands for the hypotheses of each statement -/

theorem witness_DivisionResults : s1.core.xr 2#6 ≠ 0#64 ∧ s1.core.xr 3#6 = 0#64 := by decide

theorem witness_IntegerImmediateResults : (1 ≤ (64#64).toNat ∧ (64#64).toNat ≤ 64) ∧
    ((61 ≤ 64 ∧ (∀ i < 61, (s1.core.xr 1#6).getLsbD (63 - i) = false)) ∧ (61 < 64 → (s1.core.xr 1#6).getLsbD (63 - 61) = true)) ∧
    ((64 ≤ 64 ∧ (∀ i < 64, (s1.core.xr 3#6).getLsbD i = false)) ∧ (64 < 64 → (s1.core.xr 3#6).getLsbD 64 = true)) := by
  decide

theorem witness_IntegerRegisterResults :
    integerCondition 2#4 (s1.core.xr 2#6) (s1.core.xr 1#6) ∧ ¬integerCondition 6#4 (s1.core.xr 2#6) (s1.core.xr 1#6) := by
  show (s1.core.xr 2#6).toInt < (s1.core.xr 1#6).toInt ∧ ¬(s1.core.xr 2#6).toNat < (s1.core.xr 1#6).toNat
  decide

/-- x1 = 1.0, x2 = 3.0 and x3 = a signalling NaN in FP32; in s2t every FP exception is enabled. -/
def s2 : State := withX (withX (withX s0 1#6 0x3F800000#64) 2#6 0x40400000#64) 3#6 0x7F800001#64
def s2t : State := { s2 with core := { s2.core with ps := 0x7C00#64 } }

theorem witness_FloatArithmeticResults : s2.core.fptrap = 0#5 ∧ s2t.core.fptrap = 0x1F#5 ∧
    ((roundVal fp32 (floatMode s2t 4#3) false (divVal (decodeFloat fp32 0x3F800000) (decodeFloat fp32 0x40400000)).1).flags &&&
      s2t.core.fptrap).getLsbD (5 - 5) = true ∧
    ∀ k < 5, 1 ≤ k → ((roundVal fp32 (floatMode s2t 4#3) false (divVal (decodeFloat fp32 0x3F800000) (decodeFloat fp32 0x40400000)).1).flags &&&
      s2t.core.fptrap).getLsbD (5 - k) = false := by
  decide

theorem witness_FloatCompareConvertResults : (decodeFloat fp32 (s2.core.xr 3#6).toNat).isSnan = true ∧
    (decodeFloat fp32 (s2.core.xr 1#6).toNat).isNan = false ∧ flagInvalid &&& s2.core.fptrap = 0#5 ∧
    (toIntRange (floatMode s2 0#3) (-2 ^ 31) (2 ^ 31 - 1) (decodeFloat fp32 (s2.core.xr 2#6).toNat)).2 &&& s2.core.fptrap = 0#5 := by
  decide

theorem witness_RepresentableRoundsToItself : fa48 ∈ [fp64, fp32, fp16, bf16, fa48, e5m2, e4m3, e2m1] ∧ 1 < 2 * fa48.signBit ∧
    ∃ n p d, decodeFloat fa48 1 = .fin n p d :=
  ⟨by decide, by decide, _, _, _, rfl⟩

/-- The strand at 0x10000, where NOPs stand in a line whose every slot is a branch target. -/
def s2b : State := withX (withX ({ s0 with core := { s0.core with pc := 0x10000#64 } } : State) 1#6 0x10018#64) 2#6 1#64
def s2c : State := { s2b.placeWord 96 0 with core := { (s2b.placeWord 96 0).core with run := .running } }

set_option maxRecDepth 20000 in
theorem witness_BranchResults : canEnter s2c 0x43#64 (s2c.core.xr 1#6) ∧ s2c.core.xr 2#6 = 1#64 ∧ s2c.core.xr 1#6 ≠ 1#64 ∧
    integerCondition 5#4 (s2c.core.xr 1#6) (s2c.core.xr 2#6) ∧ validPc 0x10001#64 = false ∧ (4#3).toNat ≤ 4 := by
  refine ⟨?_, by decide, by decide, ?_, by decide, by decide⟩
  · unfold canEnter
    decide
  · show (s2c.core.xr 2#6).toInt < (s2c.core.xr 1#6).toInt
    decide

theorem witness_SequentialFlow : validPc s2c.core.pc = true ∧ (9#4).toNat ≤ 9 ∧ (3#2) ≠ 0#2 ∧
    integerCondition 0#4 (s2c.core.xr 2#6) 1#64 := by
  refine ⟨by decide, by decide, by decide, ?_⟩
  show s2c.core.xr 2#6 = 1#64
  decide

/-- x1 = 0x10000, an address in a mapped page, where the bytes 1, 0x82, 3, 0x84 stand. -/
def s3 : State := { withX (withX s0 1#6 0x10000#64) 2#6 0x123456789ABCDEF0#64 with
  card := { card0 with hbm := card0.hbm.take 2 ++ [(0x10000, 1#8), (0x10001, 0x82#8), (0x10002, 3#8), (0x10003, 0x84#8)] ++ card0.hbm.drop 2 } }

theorem witness_LoadResults : scalarAllowed s3 .load (s3.core.xr 1#6 + 4#64) 4 ∧ s3.loadClear (0x10004, 0x10008) = true := by
  unfold scalarAllowed
  decide

theorem witness_StoreResults : scalarAllowed s3 .store (s3.core.xr 1#6) 8 ∧ s3.storeClear (0x10000, 0x10008) = true ∧
    (s3.core.drain.filter fun e => !e.tile).length < 32 ∧ (∃ l, s3.card.translate 1 0 0x10000 = some l) ∧ s3.releaseReady 3 = true ∧
    s3.releaseHeld 3 = [] := by
  refine ⟨?_, by decide, by decide, ⟨_, rfl⟩, by decide, by decide⟩
  unfold scalarAllowed
  decide

theorem witness_AtomicResults : scalarAllowed s3 .atomic (s3.core.xr 1#6) 8 ∧ s3.loadClear (0x10000, 0x10008) = true ∧
    s3.storeClear (0x10000, 0x10008) = true ∧ s3.releaseReady 2 = true ∧ s3.drained = true ∧ s3.heldBy s3 = [] ∧ 2 ≤ (3#2).toNat := by
  refine ⟨?_, by decide, by decide, by decide, by decide, by decide, by decide⟩
  unfold scalarAllowed
  decide

theorem witness_ScalarAddressTraps : (0x10001#64).toNat < 2 ^ 52 ∧ (0x10001#64).toNat % 2 ^ (1#2).toNat ≠ 0 ∧ 2 ^ 52 ≤ (0x10000000000000#64).toNat ∧
    ∃ b d, s3.accessFault .store 0x80000000 0x80000008 = some (b, d) :=
  ⟨by decide, by decide, by decide, _, _, rfl⟩

/-- Shape h0 of 2 rows of 16 bytes; x3 = 256 is a stride, x4 a table of 4 rows of pitch 32; t2 holds indexes 3 and 1, t1 is an FP32 tile. -/
def s3t : State := withT (withT { withX (withX s3 3#6 256#64) 4#6 0x0000000400000020#64 with
  core := { (withX (withX s3 3#6 256#64) 4#6 0x0000000400000020#64).core with h := core0.h.set 0 0x802#64 } }
  2#5 (mkTile 1 8 10#5 0#4 [[3, 1]])) 1#5 (mkTile 2 16 2#5 0#4 [[1, 2, 3, 4], [5, 6, 7, 8]])

theorem witness_TileMemoryResults : 0 < s3t.core.hRows 0#3 ∧ s3t.core.hRowbytes 0#3 % elemBytes 2#5 = 0 ∧ s3t.loadClear (0x10000, 0x10110) = true ∧
    s3t.storeClear (0x10000, 0x10110) = true ∧ tilesAllowed s3t [1#5, 2#5] ∧ boundingBox 2 16 0x10000 0x10110 (stridedRow s3t 1#6 3#6 0#32) ∧
    rowsAllowed s3t .load 2 16 4 0x10000 0x10110 (stridedRow s3t 1#6 3#6 0#32) ∧
    rowsAllowed s3t .store 2 16 4 0x10000 0x10110 (stridedRow s3t 1#6 3#6 0#32) ∧ indexAllowed s3t 4#6 2#5 2#5 2 16 ∧
    rowsAllowed s3t .load 2 16 4 0x10000 0x10080 (indexedRow s3t 1#6 4#6 0#32 2#5) ∧
    rowsAllowed s3t .store 2 16 4 0x10000 0x10080 (indexedRow s3t 1#6 4#6 0#32 2#5) ∧
    (s3t.core.tr 1#5).rows = s3t.core.hRows 0#3 ∧ (s3t.core.tr 1#5).rowbytes = s3t.core.hRowbytes 0#3 ∧ (s3t.core.tr 1#5).data.length = 2 := by
  refine ⟨?_, ?_, ?_, ?_, ?_, ?_, ?_, ?_, ?_, ?_, ?_, ?_, ?_, ?_⟩ <;>
    first | decide | (unfold tilesAllowed; decide) | (unfold boundingBox; decide) | (unfold rowsAllowed; decide) |
      (unfold indexAllowed; dsimp only; decide)

/-- Elements of a tile that take small values of both signs in any format: element n of row m is bits of a counter. -/
def bytesTile (rows rowbytes : Nat) (fmt : BitVec 5) (quant : BitVec 4) (seed : Nat) : Tile :=
  ⟨rows, rowbytes, fmt, quant, (List.range rows).map fun m => (List.range rowbytes).map fun n =>
    BitVec.ofNat 8 ((seed + m * 131 + n * 89) * 2654435761 / 65536)⟩

/-- t1 and t2 of a format, 2 rows of 16 bytes, t3 INT32 of the same shape, t4 empty; h0 is their shape, h1 is 1 row of 16 bytes, h2 is 2 rows
of 8, h3 is 4 rows of 8, h4 is 2 rows of 64. -/
def s4 (fmt : BitVec 5) : State :=
  let c := ((s3.core.setT 1#5 (bytesTile 2 16 fmt 1#4 7)).setT 2#5 (bytesTile 2 16 fmt 2#4 1001)).setT 3#5 (mkTile 2 16 10#5 0#4 [[3, 1, 0, 2], [0, 0, 1, 1]])
  { s3 with core := { c with h := ((((c.h.set 0 0x802#64).set 1 0x801#64).set 2 0x402#64).set 3 0x404#64).set 4 0x2002#64 } }

theorem witness_TileMoveResults : tilesAllowed (s4 4#5) [6#5, 1#5] ∧ (s4 4#5).core.hRowbytes 0#3 % elemBytes 4#5 = 0 ∧ ((s4 4#5).core.tr 1#5).rows ≠ 0 ∧
    ((s4 4#5).core.tr 1#5).fmt.toNat ≤ 14 ∧ (0x107#32).toNat / 256 < ((s4 4#5).core.tr 1#5).rows ∧ (0x107#32).toNat % 256 < ((s4 4#5).core.tr 1#5).count ∧
    ((s4 4#5).core.tr 4#5).rows = 0 ∧ ((s4 4#5).core.tr 1#5).count ≤ (0x108#32).toNat % 256 ∧
    (s4 4#5).core.hRows 3#3 * (s4 4#5).core.hRowbytes 3#3 = ((s4 4#5).core.tr 1#5).rows * ((s4 4#5).core.tr 1#5).rowbytes := by
  unfold tilesAllowed
  decide

/-- t7 an E2M1 tile with its scales t8; w1 holds a BF16 tile of the shape of t1, w3 one of 8 rows, w0 an E2M1 tile. -/
def s5 : State := { s4 4#5 with core :=
  let c := ((s4 4#5).core.setT 7#5 (bytesTile 2 64 7#5 0#4 5)).setT 8#5 (mkTile 2 4 14#5 0#4 [[127, 128, 126, 127], [127, 127, 127, 127]])
  { c with w := ((c.w.set 0 ⟨c.tr 7#5, c.tr 8#5⟩).set 1 ⟨bytesTile 3 16 4#5 2#4 9, Tile.empty⟩).set 3 ⟨bytesTile 8 16 4#5 2#4 9, Tile.empty⟩ } }

theorem witness_AccumulatorResults : s5.core.kind = .compute ∧ tilesAllowed s5 [7#5, 8#5] ∧ (3#2).toNat < s5.core.limits.pins ∧
    (5#3).toNat < s5.core.limits.acc ∧ (s5.core.tr 1#5).rows ≠ 0 ∧ (s5.core.tr 1#5).fmt = 4#5 ∧
    ((s5.core.tr 7#5).fmt = 7#5 ∧ (s5.core.tr 8#5).rows = (s5.core.tr 7#5).rows ∧ (s5.core.tr 8#5).fmt = 14#5 ∧
      (s5.core.tr 8#5).rowbytes * 16 = (s5.core.tr 7#5).rowbytes ∧ (s5.core.tr 7#5).rowbytes = 64) ∧
    62 + (s5.core.tr 1#5).rows ≤ 64 ∧ 56 + (s5.core.tr 1#5).count ≤ 64 ∧
    s5.core.hRowbytes 0#3 % elemBytes 13#5 = 0 ∧ s5.core.hRowbytes 0#3 % elemBytes 5#5 = 0 ∧ 62 + s5.core.hRows 0#3 ≤ 64 ∧
    48 + elemCount 5#5 (s5.core.hRowbytes 0#3) ≤ 64 ∧ scaleOk (s5.core.qScale 2#4) = true := by
  unfold tilesAllowed
  decide

theorem witness_MatrixProductResults :
    let b (pin : BitVec 2) := (s5.core.wr pin).tile
    let a := s5.core.tr 1#5
    (s5.core.kind = .compute ∧ s5.core.supervisor = false ∧ (7#3).toNat < s5.core.limits.acc) ∧
    ((7#3).toNat % 2 = (1#2).toNat % 2 ∧ a.rows ≠ 0 ∧ isMat a.fmt = true ∧ matPair a.fmt (b 1#2).fmt = true ∧ a.count = (b 1#2).count ∧ (b 1#2).rows ≠ 0) ∧
    ((b 3#2).fmt = 4#5 ∧ a.Shaped ∧ (b 3#2).Shaped ∧ a.count = (b 3#2).rows ∧ 0 < (b 3#2).count) ∧
    ((0#3).toNat % 2 = (0#2).toNat % 2 ∧ (s5.core.tr 7#5).count = (b 0#2).count ∧ (b 0#2).fmt = 7#5 ∧ matPair 7#5 7#5 = true) ∧
    ((s5.core.tr 2#5).rows = a.rows ∧ matPair a.fmt (s5.core.tr 2#5).fmt = true ∧ (s5.core.tr 2#5).Shaped ∧ a.count ≤ 64) := by
  unfold Tile.Shaped
  decide

/-- t1, t2 and t9 of a format, 2 rows of 16 bytes; every FP exception is enabled in s6t. -/
def s6 (fmt : BitVec 5) : State := withT (s4 fmt) 9#5 (bytesTile 2 16 fmt 3#4 55)

theorem witness_VectorArithmeticResults : tilesAllowed (s6 2#5) [6#5, 1#5, 9#5, 2#5] ∧ ((s6 2#5).core.tr 1#5).rows ≠ 0 ∧
    ((s6 2#5).core.tr 1#5).Shaped ∧ operandAllowed (s6 2#5) 0#3 1#5 2#5 ∧ operandAllowed (s6 2#5) 2#3 1#5 2#5 ∧
    operandAllowed (s6 2#5) 1#3 1#5 0#5 ∧ operandAllowed (s6 10#5) 3#3 1#5 2#5 ∧ ((s6 10#5).core.tr 1#5).fmt = 10#5 ∧
    ((s6 2#5).core.tr 9#5).rows = ((s6 2#5).core.tr 1#5).rows ∧ ((s6 2#5).core.tr 9#5).rowbytes = ((s6 2#5).core.tr 1#5).rowbytes ∧
    ((s6 2#5).core.tr 9#5).fmt = ((s6 2#5).core.tr 1#5).fmt ∧ ((s6 2#5).core.tr 9#5).Shaped ∧ (s6 2#5).core.fptrap = 0#5 := by
  and_intros <;> first | decide | (unfold operandAllowed Tile.Shaped; dsimp only; decide)

theorem witness_VectorBitSelectionResults : tilesAllowed (s6 10#5) [6#5, 1#5, 9#5, 2#5] ∧ ((s6 10#5).core.tr 1#5).Shaped ∧
    operandAllowed (s6 10#5) 0#3 1#5 2#5 ∧ ((s6 10#5).core.tr 1#5).fmt ∈ [8#5, 9#5, 10#5, 11#5] ∧
    (s6 10#5).core.hRows 0#3 = ((s6 10#5).core.tr 1#5).rows ∧
    elemCount 10#5 ((s6 10#5).core.hRowbytes 0#3) = ((s6 10#5).core.tr 1#5).count ∧ (s6 10#5).core.hRowbytes 0#3 % elemBytes 10#5 = 0 ∧
    ((s6 10#5).core.tr 9#5).rows = ((s6 10#5).core.tr 1#5).rows ∧ ((s6 10#5).core.tr 9#5).count = ((s6 10#5).core.tr 1#5).count := by
  and_intros <;> first | decide | (unfold operandAllowed Tile.Shaped; dsimp only; decide)

theorem witness_VectorFunctionResults : tilesAllowed (s6 3#5) [6#5, 1#5] ∧ ((s6 3#5).core.tr 1#5).rows ≠ 0 ∧ ((s6 3#5).core.tr 1#5).Shaped ∧
    ((s6 3#5).core.tr 1#5).fmt = 3#5 ∧ ((s6 11#5).core.tr 1#5).fmt = 11#5 ∧ (s6 3#5).core.hRowbytes 0#3 % elemBytes 3#5 = 0 := by
  and_intros <;> decide

theorem witness_VectorConversionResults : tilesAllowed (s6 2#5) [0#5, 1#5, 6#5] ∧ ((s6 2#5).core.tr 1#5).rows ≠ 0 ∧
    ((s6 2#5).core.tr 1#5).Shaped ∧ ((s6 2#5).core.tr 1#5).fmt ∈ [1#5, 2#5, 3#5, 4#5, 5#5, 6#5, 10#5, 11#5, 13#5] ∧
    (s6 2#5).core.hRows 2#3 = ((s6 2#5).core.tr 1#5).rows ∧ elemCount 4#5 ((s6 2#5).core.hRowbytes 2#3) = ((s6 2#5).core.tr 1#5).count ∧
    (s6 2#5).core.hRowbytes 2#3 % elemBytes 4#5 = 0 ∧ scaleOk ((s6 2#5).core.qScale 3#4) = true ∧
    (s5.core.tr 7#5).Shaped ∧ (s5.core.tr 8#5).Shaped ∧ (s5.core.tr 8#5).rowbytes * 16 = (s5.core.tr 7#5).rowbytes ∧
    s5.core.hRows 4#3 = (s5.core.tr 7#5).rows ∧ elemCount 7#5 (s5.core.hRowbytes 4#3) = (s5.core.tr 7#5).count ∧ s5.core.hRowbytes 4#3 = 64 := by
  and_intros <;> decide

theorem witness_VectorReductionResults : tilesAllowed (s6 2#5) [6#5, 1#5, 2#5] ∧ ((s6 2#5).core.tr 1#5).rows ≠ 0 ∧
    ((s6 2#5).core.tr 1#5).Shaped ∧ ((s6 2#5).core.tr 1#5).rowbytes ≤ 128 ∧ ((s6 2#5).core.tr 1#5).rows ≤ 64 ∧
    (s6 2#5).core.hRowbytes 0#3 % elemBytes 4#5 = 0 ∧ (s6 2#5).core.hRows 0#3 = ((s6 2#5).core.tr 1#5).rows ∧
    ((s6 2#5).core.hRows 1#3 = 1 ∧ elemCount 2#5 ((s6 2#5).core.hRowbytes 1#3) = ((s6 2#5).core.tr 1#5).count) ∧
    operandAllowed (s6 2#5) 0#3 1#5 2#5 := by
  and_intros <;> first | decide | (unfold operandAllowed Tile.Shaped; dsimp only; decide)

theorem witness_VectorRearrangementResults : tilesAllowed (s6 2#5) [6#5, 1#5, 3#5] ∧ ((s6 2#5).core.tr 1#5).Shaped ∧
    ((s6 2#5).core.tr 1#5).count ≤ 64 ∧ 4 ≤ ((s6 2#5).core.tr 1#5).rows * elemBytes 2#5 ∧ ((s6 2#5).core.tr 1#5).rows * elemBytes 2#5 % 4 = 0 ∧
    (0x103#32).toNat / 256 < ((s6 2#5).core.tr 1#5).rows ∧ (0x103#32).toNat % 256 < ((s6 2#5).core.tr 1#5).count ∧
    (s6 2#5).core.hRowbytes 1#3 = ((s6 2#5).core.tr 1#5).rowbytes ∧ (1#32).toNat < ((s6 2#5).core.tr 1#5).rows ∧
    ((s6 2#5).core.tr 3#5).Shaped ∧ ((s6 2#5).core.tr 3#5).count = ((s6 2#5).core.tr 1#5).count ∧
    ((s6 2#5).core.tr 3#5).rows = ((s6 2#5).core.tr 1#5).rows ∧
    (∀ m < 2, ∀ n < 4, 0 ≤ intOf 10#5 (operandEl (s6 2#5) 0#3 1#5 3#5 0#6 m n) ∧
      intOf 10#5 (operandEl (s6 2#5) 0#3 1#5 3#5 0#6 m n) < 4) := by
  and_intros <;> decide

/-- 1/3 in element [0][0] and 1 in the others: the inexact exception of VDIV by 3 is enabled. -/
def s6t : State := withT { withX s0 5#6 0x40400000#64 with core := { (withX s0 5#6 0x40400000#64).core with ps := 0x7C00#64 } } 1#5
  (mkTile 1 8 2#5 0#4 [[0x40400000, 0x3F800000]])

theorem witness_VectorTraps :
    let fl (n : Nat) : FpFlags := (rounded s6t fp32 0#2 false 0 n (divVal (decodeFloat fp32 ((s6t.core.tr 1#5).el 0 n))
      (decodeFloat fp32 (operandEl s6t 1#3 1#5 0#5 5#6 0 n)))).2 &&& s6t.core.fptrap
    tilesAllowed s6t [6#5, 1#5] ∧ (s6t.core.tr 1#5).Shaped ∧ (fl 1).getLsbD (5 - 5) = true ∧ (fl 0).getLsbD (5 - 5) = false ∧
    (∀ n < 2, ∀ k < 5, 1 ≤ k → (fl n).getLsbD (5 - k) = false) := by
  dsimp only
  and_intros <;> decide

/-- Partition 0 with every cluster, and a launch of one strand whose record asks for the resources of core0. -/
def part0 : Partition := { Partition.fresh 0 with
  clusters := 0xFF#32, badgers := 3#32, channels := 0xFF#32, asidFirst := 1, asidLast := 15, quota := 1000000, logs := 1 }

def record1 : List Word := [0x10000#64, 0xABC#64, 0xF000000020000#64, 77#64, 0x40000#64, 0#64, 0x1000000#64, 0#64, 0x10019#64, 0x10000#64] ++
  List.replicate 10 0#64 ++ [0x22100000025#64, 100#64, 0x82048#64] ++ List.replicate 9 0#64

def strand1 : StrandInfo := ⟨0, 0, some 0, false, 0, false, [], true, 1#16, [], []⟩

def launch1 : Launch := ⟨1#16, record1, .single, true, false, none, none, [⟨0, false, 0, .running⟩], [strand1], 0, none, 0, 0, 0, 0, none, false⟩

/-- The strand of launch1, in supervisor mode when sup; the state before the effect of a system instruction. -/
def s7 (sup : Bool) : State := { s3 with
  core := { s3.core with strand := strandWord 1#16 1#16 0, ps := if sup then 0x8000#64 else 0#64, epc := 0x20018#64 }
  card := { s3.card with partitions := [part0], launches := [launch1] } }

def cause12 : Exc := ⟨12, 1, 0x60000#64, 9#64⟩
def cause13 : Exc := ⟨13, 0, 0x50000#64, 7#64⟩
def cause15 : Exc := ⟨15, 1, 0x50000#64, 7#64⟩

theorem witness_ExceptionEntry : (⟨15, 63, 0#64, 0#64⟩ : Exc).cls < 16 ∧ (⟨15, 63, 0#64, 0#64⟩ : Exc).detail < 64 := by decide

theorem witness_TrapReturnResults : (s7 true).core.supervisor = true ∧ validPc (s7 true).core.epc = true ∧ (s7 true).core.pmode = false ∧
    (s7 true).core.machineChecks = [] ∧ (s7 true).core.preempt = none ∧ (s7 true).core.reports = [] ∧
    (∀ c, c ∈ [{ (s7 true).core with machineChecks := [cause15, cause15] }, { (s7 true).core with preempt := some cause13 },
      { (s7 true).core with reports := [cause12] }] → c.supervisor = true ∧ c.pmode = false) ∧
    cause15.cls = 15 ∧ cause13.cls = 13 ∧ cause12.cls = 12 ∧ validPc 0x2001C#64 = false := by
  decide

set_option maxRecDepth 20000 in
theorem witness_SpecialRegisterResults : (0x017, (s7 false).core.sytmo) ∈ specialRegisters (s7 false) ∧ (∀ p ∈ specialRegisters (s7 false), p.1 ≠ 0x003) ∧
    (s7 false).core.kind = .compute ∧ channelAllowed (s7 false) 7 ∧ (s7 true).core.supervisor = true ∧
    (part0 ∈ (s7 true).card.partitions ∧ part0.colour = (s7 true).core.colour.toNat ∧ part0.asidFirst ≤ (15#64).toNat ∧ (15#64).toNat ≤ part0.asidLast) ∧
    (0xFFFFFFFFFF000#64).toNat % 4096 = 0 ∧ (0xFFFFFFFFFF000#64).toNat < 2 ^ 52 ∧
    (1 ≤ (0x4040#64).toNat % 128 ∧ (0x4040#64).toNat % 128 ≤ 64 ∧ 4 ≤ (0x4040#64).toNat / 128 % 256 ∧ (0x4040#64).toNat / 128 % 256 ≤ 128 ∧
      (0x4040#64).toNat / 128 % 4 = 0) := by
  refine ⟨by decide, by decide, by decide, .inr (by decide), by decide, by decide, by decide, by decide, by decide⟩

theorem witness_SystemResults : (s7 true).core.supervisor = true ∧ (s7 true).haltReady = true ∧ (s7 true).releaseHeld 3 = [] ∧
    ({ s7 true with core := { (s7 true).core with unaccepted := 1 } } : State).haltReady = false ∧
    (s7 true).core.inbox = [] ∧ ((s7 true).core.xr 0#6).toNat ≤ (s7 true).core.cycle.toNat ∧
    (s7 true).core.imageAddr ≠ some ((s7 true).core.xr 1#6) ∧ (s7 true).drained = true ∧
    (s7 true).card.strandInfo (s7 true).core.launchOf (s7 true).core.strandIndex = some strand1 ∧
    ({ (s7 true).core with imageAddr := some ((s7 true).core.xr 1#6) } : Core).imageAddr = some ((s7 true).core.xr 1#6) ∧
    ({ (s7 true).core with inbox := [⟨1#64, 2#64, 3#64, []⟩] } : Core).inbox ≠ [] ∧ (s7 false).core.supervisor = false := by
  decide

/-- A descriptor at 0x10020 of 2 rows of 128 bytes of class package, an object of the cluster's table, a window and its registers. -/
def s7o : State :=
  let s : State := withX (withX (withX (withX (s7 true) 1#6 0x10020#64) 2#6 0x4000#64) 3#6 0x100000#64) 4#6 1#64
  { s with card := { s.card with hbm := writeBytes s.card.hbm 0x10020 (toBytes 32 (0x40000 + 0x100 * 2 ^ 64 + 128 * 2 ^ 128 + 2 * 2 ^ 160 + 3 * 2 ^ 192)) } }

def object1 : ObjEntry := ⟨.package, 2, 128, 0x100, 0x40000, 1#16⟩
def s7p : State := s7o.setCluster 0 { s7o.clusterAt 0 with objects := [object1] }
def window1 : Window := ⟨1, 0x100000, 0x4000, 14⟩

set_option maxRecDepth 100000 in
theorem witness_ObjectAndWindowResults :
    (s7o.core.kind = .compute ∧ clusterOf s7o.core.num = some 0 ∧ (s7o.core.xr 1#6).toNat % 32 = 0 ∧ (s7o.core.xr 1#6).toNat < 2 ^ 52 ∧
      s7o.accessFault .load 0x10020 0x10040 = none ∧ s7o.loadClear (0x10020, 0x10040) = true) ∧
    (objectOf (s7o.descriptor 0x10020) s7o.core.launchId = some object1 ∧ (s7o.clusterAt 0).objects = [] ∧ s7o.storeClear object1.box = true ∧
      s7o.drained = true ∧ s7o.heldBy (((s7o.touchRange 0x10020 32).flushObject 0 object1 false).staleObject 0 object1) = []) ∧
    ((s7p.clusterAt 0).objects.find? (fun p => p.base == field (s7p.descriptor 0x10020) 0 52 && p.launch == s7p.core.launchId) = some object1 ∧
      s7p.heldBy ((s7p.touchRange 0x10020 32).dropObject 0 object1) = []) := by
  and_intros <;> decide

set_option maxRecDepth 20000 in
theorem witness_ObjectAndWindowResults_windows :
    ((14#32).extractLsb' 0 5).toNat = 14 ∧ (s7o.core.xr 2#6).toNat + 2 ^ 14 ≤ s7o.core.limits.stash * 1024 ∧ (s7o.core.xr 3#6).toNat % 2 ^ 14 = 0 ∧
    (s7o.core.xr 2#6).toNat % 2 ^ 14 = 0 ∧ overlap (0x100000, 0x100000 + 2 ^ 14) s7o.core.apertureBox = false ∧ s7o.core.stash.window 7 = none ∧
    s7o.core.stash.mapped = [] ∧ s7o.drained = true ∧
    (s7o.core.supervisor = true ∧ 1 ≤ (s7o.core.xr 4#6).toNat ∧ (s7o.core.xr 4#6).toNat ≤ s7o.sheafCores.length ∧
      (0x100000#64).toNat % 2 ^ 18 = 0) ∧
    (let s := s7o.withStash (s7o.core.stash.setWindow 7 (some window1))
     s.core.stash.window 7 = some window1 ∧ s.storeClear window1.box = true ∧ s.heldBy (s.writeBackWindow window1) = [] ∧
      s.storeClear (windowsBox (s.core.stash.masked 0x80#8)) = true) := by
  dsimp only
  and_intros <;> decide

/-- A sketch of depth 3 and 8 counters a row at 0x40000 with its record at 0x30000; h5 is 1 row of 4 bytes, t3 keys. -/
def sketch1 : Record := ⟨0x40000, 1000, 3, 0x0C, 3, -3, 2, false, 5, 1, true⟩
def s8 : State :=
  let s : State := withX (withX (withX (withX (s4 2#5) 10#6 0x30000#64) 11#6 0x40000#64) 12#6 1000#64) 13#6 999#64
  { s with
    core := { s.core with h := s.core.h.set 5 0x201#64 }
    card := { s.card with hbm := withBytes s.card.hbm [(0x30002, 4#8), (0x30008, 232#8), (0x30009, 3#8),
      (0x30010, 3#8), (0x30011, 12#8), (0x30012, 3#8), (0x30014, 253#8), (0x30015, 2#8), (0x30018, 5#8), (0x30020, 1#8)] } }

theorem witness_PostedWorkResults :
    (s8.core.posts = [] ∧ s8.core.parked = .free ∧ s8.readonlyByte 0x30000 0x30040 = none ∧ s8.postClear (0x30000, 0x30004) = true ∧
      s8.inStash 0x30000 = false) ∧
    (s8.storeClear (0x30000, 0x30040) = true ∧ (s8.core.xr 10#6).toNat % 64 = 0 ∧ s8.core.kind = .compute) ∧
    (7#3 ∈ [3#3, 5#3, 7#3] ∧ 3 ≤ (8#5).toNat ∧ -64 ≤ (-64#8).toInt ∧ (s8.core.xr 12#6).toNat < 2 ^ 40 ∧ (s8.core.xr 11#6).toNat % 128 = 0 ∧
      (s8.core.xr 10#6).toNat + 64 ≤ (s8.core.xr 11#6).toNat) ∧
    (tilesAllowed s8 [1#5, 3#5] ∧ (s8.core.tr 1#5).fmt = 2#5 ∧ (s8.core.tr 3#5).fmt = 10#5 ∧
      (s8.core.tr 1#5).rows * (s8.core.tr 1#5).count ≤ (s8.core.tr 3#5).rows * (s8.core.tr 3#5).count ∧
      (s8.core.xr 11#6).toNat + (s8.core.tr 1#5).rows * (s8.core.tr 1#5).count ≤ 2 ^ 40 ∧
      (s8.core.tr 1#5).rows * (s8.core.tr 1#5).rowbytes + (s8.core.tr 3#5).rows * (s8.core.tr 3#5).rowbytes ≤ 32768) ∧
    ∃ m p d, decodeFloat fp32 ((s8.core.xr 11#6).toNat % 2 ^ 32) = .fin m p d := by
  refine ⟨by decide, by decide, by decide, ?_, ?_⟩
  · and_intros <;> decide
  · exact ⟨_, _, _, rfl⟩

set_option exponentiation.threshold 512 in
set_option maxRecDepth 20000 in
theorem witness_SketchReadResults :
    let counters (k : Nat) : List Int := (List.range 3).map fun i =>
      (if hashNeg 2 i k then -1 else 1) * s8.counter 1 0 (0x40000 + 4 * (8 * i + hashBucket 3 2 i k))
    s8.core.kind = .compute ∧ s8.loadClear (0x30000, 0x30040) = true ∧
    (s8.recordCheck .query 1 0 false none 0x30000).toOption = some sketch1 ∧ (s8.areaCheck .query 1 0 false 0x40000 96).toOption = some () ∧
    tilesAllowed s8 [6#5, 3#5] ∧ s8.core.hRowbytes 5#3 % 4 = 0 ∧ (s8.core.hRows 5#3 * (s8.core.hRowbytes 5#3 / 4) = 1) ∧
    ((s8.core.xr 13#6).toNat < 1000 ∧ 0 ∈ counters 999 ∧ ((counters 999).filter fun c => decide (c < 0)).length ≤ 1 ∧
      ((counters 999).filter fun c => decide (0 < c)).length ≤ 1) ∧
    ((s8.core.tr 3#5).Shaped ∧ ((3 : Nat) : Int) = intOf 10#5 ((s8.core.tr 3#5).elems.flatten.getD 0 0)) ∧ s8.ownPosts = [] := by
  dsimp only
  and_intros <;> decide

/-- Queue 2 of the launch of strand 0, with lanes 1 and 4; the same at the badger 256 that receives it, with two entries. -/
def tile8 (a b : Nat) : Tile := mkTile 2 8 2#5 3#4 [[a, 2], [b, 4]]
def queue1 (es fs : List GradEntry) : GradQueue := ⟨0#16, 2, 0, 2#5, 8, 3, [⟨1, none, es⟩, ⟨4, none, fs⟩]⟩
def s8s : State := withT { s3 with card := { s3.card with queues := [queue1 [] []] } } 1#5 (tile8 0x3F800000 0x40000000)
def s8r : State := { s8s with
  core := { s8s.core with kind := .badger, num := 256 }
  card := { s8s.card with queues := [queue1 [⟨tile8 1 2, 77#64, 0#64, 0⟩] [⟨tile8 0x3F800000 3, 77#64, 0#64, 3⟩]] } }

theorem witness_GradientQueueResults :
    (∃ g lane, (s8s.card.queues.find? fun g => g.launch == s8s.core.launchOf && g.queue == 2) = some g ∧
      g.lanes.find? (fun x => x.lane == 4) = some lane ∧ s8s.core.kind = .compute ∧ tilesAllowed s8s [1#5] ∧ (s8s.core.tr 1#5).fmt = g.fmt ∧
      (s8s.core.tr 1#5).rowbytes = g.rowbytes ∧ 0 < (s8s.core.windowCount 2 4).getD g.window ∧ s8s.core.windowCounts = [] ∧
      s8s.releaseReady 3 = true ∧ s8s.releaseHeld 3 = []) ∧
    (∃ g e es, (s8r.card.queues.find? fun g => g.launch == s8r.core.launchOf && g.queue == 2) = some g ∧ s8r.core.kind = .badger ∧
      s8r.core.num = 256 + g.badger ∧ (g.lanes.map fun x => x.entries.head?) = (e :: es).map some ∧
      (∀ f ∈ es, f.tile.rows = e.tile.rows ∧ f.key = e.key) ∧ e.tile.Shaped ∧ e.tile.fmt = 2#5 ∧ tilesAllowed s8r [6#5] ∧
      s8r.core.fptrap = 0#5) :=
  ⟨⟨_, _, rfl, rfl, by decide, by unfold tilesAllowed; decide, rfl, rfl, by decide, by decide, by decide, by decide⟩,
    ⟨_, _, [_], rfl, rfl, rfl, rfl, by decide, by unfold Tile.Shaped; decide, by decide, by unfold tilesAllowed; decide, by decide⟩⟩

theorem witness_MessageResults :
    (let s : State := withT s3 9#5 (bytesTile 1 64 0#5 0#4 5)
     s.core.kind = .compute ∧ tilesAllowed s [9#5] ∧ (s.core.xr 3#6).toNat < 2 ^ 48 ∧ (s.core.tr 9#5).rows ≠ 0 ∧ 48 ≤ (s.core.tr 9#5).rowbytes ∧
      s.core.unaccepted < 8 ∧ s.core.posts = [] ∧ s.core.parked = .free ∧ s.releaseReady 2 = true ∧ s.releaseHeld 2 = [] ∧ s.core.inbox = []) ∧
    ({ s3.core with inbox := [⟨1#64, 2#64, 77#64, []⟩] } : Core).inbox ≠ [] := by
  dsimp only
  and_intros <;> decide

/-- Copy channel 3 at a transfer of 3 rows of 40 bytes, with the next seq 7; it is queued in s9q and under way in s9b. -/
def channel3 : CopyChannel := { CopyChannel.reset with
  src := 0x10000#64, dst := 0x11000#64, rows := 3#64, rowbytes := 40#64, sstride := 64#64, dstride := 100#64, flags := 1#64, nextSeq := 7 }
def transfer7 (begun : Bool) (moved : Nat) : Transfer :=
  ⟨7, 0x10000, 0x11000, 3, 40, 64, 100, 1, false, 0, begun, moved, 520#64, false, 1⟩
def s9 (c : CopyChannel) : State := { s3 with core := { (withX s3 4#6 0x60000007#64).core with cycle := 500#64, copies := s3.core.copies.set 3 c } }
def s9q (begun : Bool) (moved : Nat) : State := s9 { channel3 with nextSeq := 8, queue := [transfer7 begun moved] }

theorem witness_CopyResults : (s9 channel3).core.kind = .compute ∧ channelAllowed (s9 channel3) 3 ∧
    (let t : Transfer := { transfer7 false 0 with promised := 0#64 }
     let b := boxOf t.dst t.rows t.rowbytes t.dstride
     (t.rowbytes : Int) ≤ t.dstride ∧ 0 ≤ b.1 ∧ b.2 ≤ 2 ^ 52 ∧ (s9 channel3).zoneOf t.srcBox ≠ .mixed ∧ (s9 channel3).zoneOf t.dstBox ≠ .mixed ∧
      (s9 channel3).copyFault t = none ∧ (s9 channel3).storeClear t.dstBox = true ∧ (s9 channel3).copiesClear t.srcBox = true) ∧
    ((s9 channel3).core.xr 4#6).toNat / 2 ^ 29 % 8 = 3 ∧
    (seqWindow 29 channel3.lastSeq 7 > 0 ∧ ∀ c ∈ [(s9q true 0).core.copies[3], { (s9q true 0).core.copies[3] with queue := [] },
      { (s9q true 0).core.copies[3] with error := some 7 }, { (s9q true 0).core.copies[3] with cancelled := some (6, 2) }], seqWindow 29 c.lastSeq 7 ≤ 0) ∧
    (seqWindow 29 (s9q true 0).core.copies[3].lastSeq 7 ≤ seqWindow 29 (s9q true 0).core.copies[3].lastSeq 7 ∧ (7 + 2 ^ 29 - 6) % 2 ^ 29 < 2) ∧
    ((s9q true 0).core.xr 0#6).toNat ≤ (s9q true 0).core.cycle.toNat ∧ (s9q true 0).core.cycle.toNat < ((s9q true 0).core.xr 1#6).toNat ∧
    (s9q true 0).core.latetrap = false := by
  refine ⟨by decide, .inr (by decide), ?_, by decide, ?_, by decide, by decide, by decide, by decide⟩
  · dsimp only
    and_intros <;> decide
  · and_intros <;> decide

set_option maxRecDepth 20000 in
theorem witness_CopyEventResults :
    ((s9q false 0).core.copies[3].queue = [transfer7 false 0] ∧ (s9q false 0).ownStores = [] ∧ (s9q false 0).ownPosts = [] ∧ (s9q false 0).ownColls = []) ∧
    (∀ n ∈ [0, 80], (s9q true n).core.beatChannel = some 3 ∧ (s9q true n).beatFails (transfer7 true n) = false ∧ (transfer7 true n).rzen = false) ∧
    (80 + min 40 (128 - (0x11000 + 200) % 128) = 3 * 40 ∧ 0 + min 40 128 < 3 * 40) := by
  and_intros <;> decide

/-- A buffer at 0x10000, x2 its length and x3 an id; a collective of the strand, of a tag 9, in each status. -/
def s9c (sts : List CollStatus) : State := { withX (withX s3 2#6 5#64) 3#6 0x90000000#64 with
  core := { (withX (withX s3 2#6 5#64) 3#6 0x90000000#64).core with linkSeq := sts.length, cycle := 6#64 }
  card := { s3.card with colls := sts.map fun st => ⟨0, 0#64, 1, 0, 9, 0, 0, .red 5, false, 0x10000, [(0x10000, 0x10014)], st⟩ } }

set_option maxRecDepth 20000 in
theorem witness_CollectiveResults : (s9c []).core.kind = .compute ∧ (s9c []).linkClear [(0x10000, 0x10014)] = true ∧
    (s9c []).heldBy ((s9c []).writeBackRange (0x10000, 0x10014)) = [] ∧ (s9c []).linkClear ((s9c []).sketchRanges 0x10000) = true ∧
    (∀ st ∈ [CollStatus.pending, .done, .error], (seqWindow 28 (((s9c [st]).core.linkSeq + 2 ^ 28 - 1) % 2 ^ 28) 0 ≤ 0 ∧
      ((s9c [st]).card.colls.filter fun k => sameStrand k.strand (s9c [st]).core.strand).map Collective.status = [st])) ∧
    0 < seqWindow 28 (((s9c []).core.linkSeq + 2 ^ 28 - 1) % 2 ^ 28) 0 ∧ ((s9c []).core.xr 2#6).toNat ≤ (s9c []).core.cycle.toNat ∧
    (s9c []).core.cycle.toNat < ((s9c []).core.xr 1#6).toNat := by
  and_intros <;> decide

/-- Channel 3 of a segment of the strands of cores 0 and 1, whose round 6 is under way; in s9h the strand waits for it. -/
def segment1 (gen : BitVec 16) (offers : List Contribution) : Segment := ⟨3, 3, 0#16, 1, 0, 2, gen,
  [⟨0, some 0, 0, 5#16, offers⟩, ⟨1, some 1, 1, 5#16, offers⟩], [⟨gen, 44#64, 55#64⟩]⟩
def s9s (gen : BitVec 16) (offers : List Contribution) (held : List HeldArrival) : State := { s3 with
  core := { (withX s3 4#6 6#64).core with held := held, cycle := 50#64, sytmo := 20#64, waitFrom := some 20#64 }
  card := { s3.card with segments := [segment1 gen offers] } }
def held6 (result : Option Word) : HeldArrival := ⟨some 0#64, 3, 6#16, true, result⟩

theorem witness_SynchronisationResults :
    (s9s 5#16 [] []).segmentAt 3 = some (0, segment1 5#16 []) ∧ (s9s 5#16 [] []).segmentAt 4 = none ∧
    ((s9s 5#16 [] []).releaseReady 2 = true ∧ (s9s 5#16 [] []).releaseHeld 2 = [] ∧ ((segment1 5#16 []).member 0).arrivals.length < 2 ∧
      (s9s 5#16 [] []).core.parked = .free ∧ (s9s 5#16 [] []).heldArrival 3 = none) ∧
    ((s9s 5#16 [] [held6 none]).heldArrival 3 = some (held6 none) ∧ (5#16 - 6#16 : BitVec 16).toInt < 0 ∧ waitedOut (s9s 5#16 [] [held6 none]).core ∧
      (s9s 5#16 [] [held6 none]).core.sytrap = false) ∧
    ((s9s 6#16 [] [held6 (some 7#64)]).heldArrival 3 = some (held6 (some 7#64)) ∧ ¬(6#16 - 6#16 : BitVec 16).toInt < 0 ∧
      ((segment1 6#16 []).results.find? fun r => r.round == 6#16) = some ⟨6#16, 44#64, 55#64⟩) ∧
    ¬waitedOut { (s9s 5#16 [] []).core with waitFrom := some 40#64 } := by
  refine ⟨rfl, rfl, by decide, ⟨rfl, by decide, ⟨by decide, _, rfl, by decide⟩, by decide⟩, ⟨rfl, by decide, rfl⟩, ?_⟩
  rintro ⟨-, w, hw, -, h⟩
  cases hw
  revert h
  decide

set_option maxRecDepth 20000 in
theorem witness_SynchronisationResults_round :
    (∀ c ∈ [Contribution.offer 9#64, .value 0 false 9#64, .none], (s9s 5#16 [c] []).card.segments[0]? = some (segment1 5#16 [c]) ∧
      (∀ m ∈ (segment1 5#16 [c]).members, m.core.any (fun k => decide (k < 256)) = true ∧ m.arrivals ≠ []) ∧
      ((segment1 5#16 [c]).members.map SyMember.core).Nodup) ∧
    (∃ m ∈ (segment1 5#16 []).members, m.arrivals = []) := by
  decide

/-- A rendezvous object at 0x40000, in a window of the strand's own stash; RZARR has sent an update to it. -/
def s9z : State := { withX (withX s3 1#6 0x40000#64) 2#6 3#64 with
  core := { (withX (withX s3 1#6 0x40000#64) 2#6 3#64).core with
    stash := (s3.core.stash.setWindow 0 (some ⟨1, 0x40000, 0, 12⟩)), cycle := 50#64, sytmo := 20#64, waitFrom := some 20#64 } }
def s9u : State := { s9z with card := { s9z.card with rendezvous := [⟨0, 0#64, 0, 0, 0x40000, some 3, 0⟩] } }

set_option maxRecDepth 20000 in
theorem witness_RendezvousResults :
    (s9z.inStash 0x40000 = true ∧ (s9z.core.xr 1#6).toNat % 16 = 0 ∧ s9z.accessFault .store 0x40000 0x40010 = none ∧
      s9z.accessFault .load 0x40000 0x40010 = none ∧ s9z.storeClear (0x40000, 0x40010) = true ∧ s9z.core.releaseStore = false ∧ s9z.core.parked = .free ∧
      s9z.releaseReady 2 = true ∧ s9z.releaseHeld 2 = []) ∧
    (s9u.drainSent = none ∧ s9u.card.rendezvous.head? = some ⟨0, 0#64, 0, 0, 0x40000, some 3, 0⟩ ∧ (s9u.coreAt 0).isSome = true) ∧
    (s9z.loadClear (0x40000, 0x40010) = true ∧ s9u.loadClear (0x40000, 0x40010) = false ∧
      ((s9z.readThrough.touchRange 0x40000 16).rendezvous 0x40000).phase = 0 ∧ (s9z.core.xr 2#6).toNat % 16 ≠ 0 ∧ (s9z.core.xr 0#6).toNat % 16 = 0) ∧
    (s9z.core.sytmo ≠ 0#64 ∧ 0 ≤ (s9z.core.cycle - 20#64).toInt ∧ s9z.core.sytmo.toNat ≤ (s9z.core.cycle - 20#64).toNat) ∧
    ((0x40008#64).toNat % 16 ≠ 0 ∧ s9z.inStash 0x10000 = false) := by
  and_intros <;> decide

theorem witness_OrderingResults : s3.releaseReady 3 = true ∧ s3.releaseHeld 3 = [] ∧ s3.drained = true ∧ s3.ownUpdates = [] ∧ s3.ownPosts = [] ∧
    s3.core.unaccepted = 0 ∧ s3.ownColls = [] ∧ (∀ k : Fin 8, s3.core.copies[k].queue = []) ∧
    ((0x108#32).getLsbD (3 : Fin 8) = true ∧ (s9q true 0).core.copies[(3 : Fin 8)].queue ≠ []) := by
  decide

/-- The strand with one write in its drain: to a local page, through the aperture, to the peer. -/
def s10 (target : Target) (scope : Option Nat) : State := { s3 with core := { s3.core with
  drain := [⟨false, 0x10000, 0x10001, scope, [⟨tagOf 1 0x10000, target, [7#8]⟩]⟩] } }
def s10a : State := { s10 (.local 0x10000) none with core := { (s10 (.local 0x10000) none).core with
  sent := true, stash := { (s10 (.local 0x10000) none).core.stash with aperture := some ⟨0, [0]⟩ } } }

theorem witness_PipelineEventResults :
    (s2c.core.run = .running ∧ s2c.fetchFault s2c.core.pc 0#64 = none) ∧
    ((s10 (.local 0x10000) none).core.sent = false ∧ (s10 (.local 0x10000) none).core.apertureAt 0x10000 = none ∧
      (s10 (.local 0x10000) none).card.bridge.domains = [] ∧
      (s10 (.local 0x10000) none).heldBy ((s10 (.local 0x10000) none).storeBytes (tagOf 1 0x10000) (.local 0x10000) [7#8]) = []) ∧
    (let s := s10 (.local 0x10000) (some 2)
     let p := s.scopePoint 2 0x10000
     s.heldBy ((s.pushRange p 0x10000 1).putRange p 0x10000 true [7#8]) = []) ∧
    ((s10 .peer none).card.bridge.up = false ∧
      { (s10 .peer none).card.bridge with up := true }.up = true ∧ (s10 .peer none).card.bridge.domains = []) ∧
    (s10a.core.sent = true ∧ s10a.core.apertureAt 0x10000 = some (s10a.core.num, 0x10000) ∧ s10a.core.stash.windowTag 0x10000 = none ∧
      s10a.card.bridge.domains = []) := by
  dsimp only
  and_intros <;> decide

/-- The strand at line 0, where an instruction stands; it waits for it since clock 20 of 50 in waitsFor. -/
def fetchedIn (s : State) (i : Instr) : State := s.placeWord 96 ((encode i).getD 0#96).toNat
def fetched (i : Instr) : State := fetchedIn s3 i
def waitsFor (s : State) (i : Instr) : State := { fetchedIn s i with core := { (fetchedIn s i).core with
  waiting := some Wait.plain, cycle := 50#64, sytmo := 20#64, waitFrom := some 20#64 } }

set_option maxRecDepth 20000 in
theorem witness_WaitEntryEventResults :
    ((fetched .nop).atHead = true ∧ ∃ x, ({ fetched .nop with core := { (fetched .nop).core with pc := 1#64 } } : State).fetch = .error x) ∧
    (∃ t f x, (fetched (.add 5#6 1#6 2#6)).fetch = .ok (t, .add 5#6 1#6 2#6) ∧ meaning (.add 5#6 1#6 2#6) = some f ∧ endingOf f t = .retires ∧
      x ∈ (t.reading (.add 5#6 1#6 2#6)).faults t (opcodeOf (.add 5#6 1#6 2#6)) ∧ (1#6 ≠ 0#6)) ∧
    (∃ t f y, (fetched .eret).fetch = .ok (t, .eret) ∧ meaning .eret = some f ∧ endingOf f t = .entry y ∧ y.afterRetire = false ∧
      y ≠ ⟨11, 1, (fetched .eret).core.pc, 0#64⟩) ∧
    (∃ t f y, (fetched (.trap 5#64)).fetch = .ok (t, .trap 5#64) ∧ meaning (.trap 5#64) = some f ∧ endingOf f t = .entry y ∧
      y.afterRetire = true) := by
  refine ⟨⟨by decide, _, rfl⟩, ⟨_, _, _, rfl, rfl, ?_, List.mem_cons_self, by decide⟩, ⟨_, _, _, rfl, rfl, rfl, rfl, ?_⟩, ⟨_, _, _, rfl, rfl, rfl, rfl⟩⟩ <;>
    decide

/-- The strand of launch1 while its partition is pre-empted, with a cause of each class pending and a report on its way. -/
def s10p : State := { s7 false with
  core := { (s7 false).core with machineChecks := [cause15], preempt := some cause13, reports := [cause12] }
  card := { (s7 false).card with
    partitions := [{ part0 with preempting := some 0 }], reports := [⟨0, strandWord 1#16 1#16 0, cause12, 0⟩] } }

theorem witness_WaitEntryEventResults_causes :
    (s10p.core.run = .running ∧ s10p.core.waiting = none ∧ s10p.core.machineChecks = [cause15] ∧ s10p.core.preempt = some cause13 ∧
      s10p.core.reports = [cause12] ∧ s10p.core.supervisor = false) ∧
    (∃ r, s10p.card.reports[0]? = some r ∧ sameStrand s10p.core.strand r.strand = true ∧ s10p.core.reports.length < 8) ∧
    (s10p.card.partitions.find? (fun p => p.colour == s10p.core.colour.toNat && p.preempting.isSome) = some { part0 with preempting := some 0 } ∧
      s10p.core.parked ≠ .preempting ∧ s10p.card.launches.find? (fun l => l.id == s10p.core.launchOf) = some launch1 ∧
      s10p.card.strandInfo s10p.core.launchOf s10p.core.strandIndex = some strand1) ∧
    ((⟨false, false, none, true, false, []⟩ : Wait).sent = true ∧ Wait.atHalt.halt = true ∧ (s7 true).core.machineChecks = [] ∧
      (s7 true).core.supervisor = true ∧ (s7 true).core.preempt = none ∧ (s7 true).core.reports = []) :=
  ⟨by decide, ⟨_, rfl, by decide⟩, by decide, by decide⟩

set_option maxRecDepth 20000 in
theorem witness_WaitEntryEventResults_waits :
    (let s := waitsFor s3 (.sleep 5#6 0#6)
     ∃ t, s.fetch = .ok (t, .sleep 5#6 0#6) ∧ s.core.run = .running ∧ s.core.waiting ≠ none ∧ s.core.fw = [] ∧ t.core.inbox = [] ∧
      t.core.x = s.core.x ∧ t.core.cycle = s.core.cycle) ∧
    (let s := waitsFor (s9q true 0) (.cpywait 5#6 4#6 0#6)
     ∃ t, s.fetch = .ok (t, .cpywait 5#6 4#6 0#6) ∧ s.core.latetrap = false ∧ t.core.ps = s.core.ps ∧ t.core.kind = .compute ∧
      seqWindow 29 (t.core.channel 3).lastSeq 7 ≤ 0 ∧ (t.core.channel 3).status 7 = none) ∧
    (let s := waitsFor (s9c [.pending]) (.lkwait 5#6 3#6 0#6)
     ∃ t, s.fetch = .ok (t, .lkwait 5#6 3#6 0#6) ∧ t.core.linkWindow 0 ≤ 0 ∧ t.linkStatus 0 = none) ∧
    (let s := waitsFor (s9s 5#16 [] []) (.sywait 5#6 4#6 3#8 true)
     ∃ t, s.fetch = .ok (t, .sywait 5#6 4#6 3#8 true) ∧ t.segmentAt 3 = some (0, segment1 5#16 []) ∧
      ((segment1 5#16 []).gen - (t.core.xr 4#6).setWidth 16).toInt < 0 ∧ t.core.sytrap = false) ∧
    waitedOut (waitsFor s3 .nop).core ∧ ¬waitedOut (fetched .nop).core := by
  refine ⟨⟨_, rfl, by decide, by decide, by decide, rfl, rfl, rfl⟩, ⟨_, rfl, by decide, rfl, rfl, by decide, rfl⟩, ⟨_, rfl, by decide, rfl⟩,
    ⟨_, rfl, rfl, by decide, rfl⟩, ⟨by decide, _, rfl, by decide⟩, ?_⟩
  rintro ⟨-, w, hw, -⟩
  exact nomatch (show (none : Option Word) = some w from hw)

/-- A post of strand 0 of core 0 at an address, and the state in which it is on its way, or its operation has begun. -/
def post1 (kind : PostKind) (addr : Nat) : Post := ⟨kind, 0x5C#8, 0#19, 0, 0#64, 1, 0, false, 2, addr, 5#64, Tile.empty, Tile.empty, 0⟩
def s11 (ps : List Post) (logs : List SideLog) : State := { s8 with card := { s8.card with flight := ps, sideLogs := logs } }
def s11j (us : List (Nat × CounterOp)) : State := { s8 with card := { s8.card with jobs := [⟨post1 .skZero 0x30000, us⟩] } }
def red1 : Post := post1 (.red 0 0) 0x50000
def entry1 (p : Post) : LogEntry := ⟨0, 128, p, 0x50000#64, 3 * 64 + 5, .pending, false⟩
def log1 (es : List LogEntry) (full rung : Bool) : SideLog := ⟨4, 0, 0, es.length, es, full, rung, false⟩

set_option exponentiation.threshold 512 in
set_option maxRecDepth 20000 in
theorem witness_PostEventResults :
    (let c := { s3.core with posts := [red1] }
     c.posts = [red1] ∧ c.releaseStore = false ∧ s3.ownStores = [] ∧
      ∃ q ∈ (s10 (.local 0x10000) none).ownStores, overlap ({ red1 with addr := 0x10000 } : Post).range q = true) ∧
    ((s11 [red1] []).card.flight[0]? = some red1 ∧ (s11 [red1] []).stashTarget red1 = false ∧ (s11 [red1] []).postOvertaken red1 = false ∧ (s11 [red1] []).logController red1 = 4 ∧
      (s11 [red1] []).card.logFull 4 red1 = false ∧ (s11 [red1] []).card.hasPending 4 red1 = false ∧ (s11 [red1] []).redFault red1 0 = none ∧
      (s11 [red1] []).peerWaits red1 = false ∧ (s11 [red1] []).heldBy ((s11 [] []).applyRed red1 0 0) = []) ∧
    ({ s9z with card := { s9z.card with flight := [{ red1 with addr := 0x40000 }] } } : State).stashTarget { red1 with addr := 0x40000 } = true ∧
    ((s11 [red1] [log1 [entry1 red1] false false]).card.hasPending 4 red1 = true ∧ (s11 [red1] [log1 [] true false]).card.logFull 4 red1 = true ∧
      ((s11 [] [log1 [entry1 red1] false false]).logPost 4 red1 0 0 .pending).1 = true) ∧
    ((s11 [] []).redFault { red1 with addr := 0x80000000 } 0 = some (0x80000000, 4) ∧
      overlap (0x50000, 0x50000 + redBytes 0) (0x50003 / 128 * 128, 0x50003 / 128 * 128 + 128) = true ∧
      ((s11 [] []).logPost 4 red1 (11 * 64) 0x50000 .pending).1 = true) := by
  dsimp only
  and_intros <;> decide

set_option exponentiation.threshold 512 in
set_option maxRecDepth 20000 in
theorem witness_PostEventResults_sketch :
    ((post1 .skZero 0x30000).isSketch = true ∧ (s11 [post1 .skZero 0x30000] []).card.jobs = [] ∧
      ((s11 [post1 .skZero 0x30000] []).planSketch (post1 .skZero 0x30000) none).toOption.isSome = true ∧
      ((s11 [] []).planSketch (post1 .skZero 0x80000000) none).toOption = none) ∧
    ((s11j [(0x40000, .add 5)]).card.jobs[0]? = some ⟨post1 .skZero 0x30000, [(0x40000, .add 5)]⟩ ∧
      (s11j [(0x40000, .add 5)]).counterController (post1 .skZero 0x30000) 0x40000 = 0 ∧
      (s11j [(0x40000, .add 5)]).heldBy ((s11j [(0x40000, .add 5)]).applyUpdate (post1 .skZero 0x30000) (0x40000, .add 5)) = []) ∧
    ((s11j []).card.jobs[0]? = some ⟨post1 .skZero 0x30000, []⟩) := by
  and_intros <;> decide

/-- A push to lane 4 on its way, a window count and a message to strand 0, and a message for the firmware. -/
def message1 : Message := ⟨strandWord 1#16 1#16 1, strandWord 1#16 1#16 0, 3#64, List.replicate 48 0#8⟩
def s11d : State := { s7 false with card := { (s7 false).card with
  flight := [post1 (.push 2 4) 0], queues := [queue1 [] []], returns := [⟨0, strandWord 1#16 1#16 0, 2, 4, 32, 0⟩], messages := [(message1, 0)],
  undeliverable := [(message1, 1)] } }

theorem witness_DeliveryEventResults :
    (s11d.card.flight[0]? = some (post1 (.push 2 4) 0) ∧ s11d.card.logFull (s11d.logController (post1 (.push 2 4) 0)) (post1 (.push 2 4) 0) = false ∧
      s11d.card.hasPending (s11d.logController (post1 (.push 2 4) 0)) (post1 (.push 2 4) 0) = false ∧
      s11d.pushForeign (post1 (.push 2 4) 0) 2 = false ∧
      (s11d.card.queues.find? fun g => g.launch == strandLaunch (post1 (.push 2 4) 0).strand && g.queue == 2) = some (queue1 [] []) ∧
      (queue1 [] []).lanes.find? (fun x => x.lane == 4) = some ⟨4, none, []⟩) ∧
    (s11d.card.returns[0]? = some ⟨0, strandWord 1#16 1#16 0, 2, 4, 32, 0⟩ ∧ s11d.core.run = .running ∧
      sameStrand s11d.core.strand (strandWord 1#16 1#16 0) = true ∧ s11d.overtaken (32, stopOf s11d.core.num) 0 = false ∧
      s11d.postOvertaken (post1 (.push 2 4) 0) = false) ∧
    (let s : State := { s11d with card := { s11d.card with undeliverable := [] } }
     s.card.messages[0]? = some (message1, 0) ∧ s.messageBehind 0 ⟨message1, 0, 48, none⟩ = false ∧ sameStrand s.core.strand message1.target = true ∧
      s.core.colour.toNat = 0 ∧ strandIncarnation s.core.strand = strandIncarnation message1.target ∧ s.core.parked = .free ∧ s.core.inbox = [] ∧
      s.card.cores = [] ∧ sameStrand s.core.strand message1.sender = false ∧ s.peer.cores = []) ∧
    strandIncarnation (strandWord 1#16 2#16 0) ≠ strandIncarnation message1.target ∧ 16 ≤ (List.replicate 16 message1).length ∧
    (s11d.card.undeliverable[0]? = some (message1, 1) ∧
      s11d.card.launches.find? (fun k => k.id == strandLaunch message1.target) = some launch1) := by
  dsimp only
  and_intros <;> decide

/-- A collective of each card under one tag, with the bridge up or down; on both cards there are the mappings of card0. -/
def coll1 (kind : CollKind) (addr : Nat) (st : CollStatus) : Collective := ⟨0, 0#64, 1, 0, 9, 0, 0, kind, false, addr, [], st⟩
def s11c (up : Bool) (a b : Collective) : State := { s8 with
  card := { s8.card with colls := [a], bridge := { s8.card.bridge with up := up } }
  peer := { s8.card with colls := [b], bridge := { s8.card.bridge with up := up } } }

set_option exponentiation.threshold 512 in
set_option maxRecDepth 20000 in
theorem witness_CollectiveEventResults :
    (let a := coll1 (.red 5) 0x50000 .pending
     let s := s11c true a a
     s.card.colls[0]? = some a ∧ linkFirst s.card.colls a = true ∧ s.card.bridge.up = true ∧
      s.peer.colls.find? (fun b => b.tag == a.tag && b.ordinal == a.ordinal && b.status == .pending) = some a ∧ linkFirst s.peer.colls a = true ∧
      s.card.hostLines = [] ∧ s.peer.hostLines = [] ∧ s.bufferOk a 5 = true ∧ s.swap.bufferOk a 5 = true ∧ (s11c false a a).card.bridge.up = false) ∧
    (let a := coll1 .sketch 0x30000 .pending
     let s := s11c true a a
     s.sketchPending a = false ∧ s.swap.sketchPending a = false ∧ s.pairRecord a = some sketch1 ∧ s.swap.pairRecord a = some sketch1 ∧
      s.pairRecord (coll1 .sketch 0x80000000 .pending) = none) ∧
    ((s11c true (coll1 .sketch 0 (.paired false)) (coll1 .sketch 0 (.paired true))).card.colls[0]? = some (coll1 .sketch 0 (.paired false))) := by
  dsimp only
  and_intros <;> decide

set_option exponentiation.threshold 512 in
set_option maxRecDepth 20000 in
theorem witness_SideLogEventResults :
    ((s11 [] [log1 [] false false]).card.sideLog 4 0).rung = false ∧
    (let s := s11 [] [log1 [entry1 red1] false true]
     let u := s11 [] [log1 [entry1 red1] false false]
     (s.card.sideLog 4 0).rung = true ∧ (s.card.sideLog 4 0).entries = [entry1 red1] ∧ (entry1 red1).state = .pending ∧ (entry1 red1).cause / 64 = 3 ∧
      red1.kind = .red 0 0 ∧ u.redFault red1 0 = none ∧ u.peerWaits red1 = false ∧ u.heldBy (u.applyLogged red1 0 0) = []) ∧
    (s11 [] [log1 [] false false]).redFault { red1 with addr := 0x80000000 } 0 = some (0x80000000, 4) ∧
    (({ entry1 red1 with cause := 11 * 64 } : LogEntry).cause / 64 ≠ 3) ∧
    ((s11 [] [log1 [entry1 red1] false false]).card.sideLog 4 0).entries.find? (fun e => e.seq == 0 && e.state == .pending) = some (entry1 red1) ∧
    (entry1 red1).marked = false ∧ ({ entry1 red1 with marked := true } : LogEntry).marked = true := by
  dsimp only
  and_intros <;> decide

/-- Clusters and an L2 whose set is full of copies of one line, dirty when d. -/
def fullLine (d : Bool) : CacheLine := ⟨tagOf 1 0x10000, true, .none, 0, if d then 1#128 else 0#128, if d then 1#8 else 0#8, List.replicate 128 7#8⟩
def fullL2 (d : Bool) : L2Line := ⟨tagOf 1 0x10000, -1#128, if d then 1#128 else 0#128, List.replicate 128 7#8⟩
def s12 (d : Bool) : State :=
  let s : State := s3.setCluster 0 { s3.clusterAt 0 with lines := List.replicate 16 (fullLine d), pkgVer := 255#8, sysVer := 255#8 }
  { s with card := { s.card with l2 := List.replicate 16 (fullL2 d) } }

theorem full_cluster_victim (d : Bool) (c : Cluster) (h : c.lines = List.replicate 16 (fullLine d)) :
    (c.victim (tagOf 1 0x10000)).map CacheLine.tag = some (tagOf 1 0x10000) := by
  simp [Cluster.victim, h, fullLine]

theorem full_l2_victim (k : Card) (h : k.l2 = List.replicate 16 (fullL2 false)) :
    (k.l2Victim (tagOf 1 0x10000)).map L2Line.tag = some (tagOf 1 0x10000) := by
  simp [Card.l2Victim, Card.fullSet, h, fullL2]

theorem witness_CacheEventResults :
    (s3.card.translate 1 0 0x80000000 = none ∧ (s3.card.translate 1 0 0x10000).isSome = true ∧ shared 0x10000 = false ∧ s3.card.walkCache = [] ∧
      s3.card.unitTlb = [] ∧ (s3.card.walk 1 0 0x10000).isSome = true ∧ s3.card.walk 1 0 0x80000000 = none) ∧
    ((∀ c ∈ s3.card.clusters.toList, c.lines.length < 16) ∧ (s3.card.l2 = [] ∧ s3.peer.l2 = []) ∧ s3.card.service.mappedOut = [] ∧
      s3.peer.service.mappedOut = [] ∧ s3.peer.unitTlb = [] ∧ s3.card.combining = []) ∧
    (s9z.core.windowOff 1 0x40000 = some 0 ∧ (s9z.homeOf 1 0 0x40000).isSome = true ∧ s9z.core.stash.byte? 0 = none ∧
      clusterOf s9z.core.num = some 0) ∧
    (((s12 false).clusterAt 0).find (tagOf 1 0x10000) = some (fullLine false) ∧ (fullLine false).dmask = 0#128 ∧
      (s12 false).card.l2Find (tagOf 1 0x10000) = some (fullL2 false) ∧ (fullL2 true).dmask ≠ 0#128 ∧ Memory.rising (s12 true).card.hbm = true ∧
      ((s12 true).card.translate 1 ((s12 true).card.lineColour (tagOf 1 0x10000)) 0x10000).map Leaf.target = some (.local 0x10000)) ∧
    (({ s3.core.stash with ver := 255#8 } : Stash).ver = 255#8 ∧ ((s12 false).clusterAt 0).pkgVer = 255#8 ∧ ((s12 false).clusterAt 0).sysVer = 255#8) ∧
    (let e : TlbEntry := ⟨1, 0, 1, 16, true, false, false, false⟩
     let s : State := { s3 with core := { s3.core with tlb := [e] } }
     s.combinable 0x10000 = true ∧ s.card.combining = [] ∧
      ∃ c ∈ [(⟨5, tagOf 1 0x10000, 0, []⟩ : CombineEntry)], c.router = 5 ∧ c.tag = lineTag (tagOf 1 0x10000)) := by
  dsimp only
  and_intros <;> decide

/-- A held write of the host, the peer and host homes of the drain's oldest write, and a BISnp that waits. -/
def write1 : IngressWrite := ⟨0, some 0, sharedVa 0x100, [1#8, 2#8]⟩
def s12h : State := { s3 with card := { s3.card with held := [write1, { write1 with number := some 1 }], snoops := [tagOf 0 (sharedVa 0)] } }

theorem hdm_nonempty : 0 < hdmBytes ∧ hdmBytes ≤ hbmBytes :=
  ⟨Nat.sub_pos_of_lt (Nat.mod_lt _ (by decide)), Nat.sub_le _ _⟩

theorem witness_HostAccessEventResults :
    (s12h.card.held[0]? = some write1 ∧ (∀ x ∈ s12h.card.held, ∀ i j, x.fn = write1.fn → x.number = some i → write1.number = some j → j ≤ i)) ∧
    (∃ x ∈ s12h.card.held, ∃ i j, x.fn = 0 ∧ x.number = some i ∧ ({ write1 with number := some 1 } : IngressWrite).number = some j ∧ i < j) ∧
    (∀ x ∈ s12h.card.held, x.fn ≠ 16) ∧ 0x48 ∉ [0x00, 0x08, 0x10, 0x18, 0x20, 0x28, 0x30, 0x38, 0x40] ∧ (∀ x ∈ s3.card.held, x.fn ≠ 0) ∧
    s12h.homeOf 0 16 (sharedVa 0) = some (.local 0x80000000) ∧ tagOf 0 (sharedVa 0) ∉ s12h.card.hostLines ∧
    (tagOf 0 (sharedVa 0) ∈ s12h.card.snoops ∧ ∀ l ∈ s12h.card.sideLogs, l.replaying = false) ∧
    (let s : State := { s10 (.host 0x1000) none with core := { (s10 (.host 0x1000) none).core with sent := true } }
     s.drainSent = some ⟨tagOf 1 0x10000, .host 0x1000, [7#8]⟩ ∧ s.core.apertureAt 0x10000 = none ∧ s.card.bridge.domains = []) := by
  refine ⟨⟨rfl, ?_⟩, ⟨write1, by decide, 0, 1, rfl, rfl, rfl, by decide⟩, by decide, by decide, by decide, by decide, by decide, by decide, by decide⟩
  simp [s12h, write1]

/-- The only command of function 0, with the code and the operand words given; and a launch record in the shared region. -/
def commanded (s : State) (code : Nat) (ws : List Nat) : State :=
  ({ s with host := { s.host with mem := writeBytes s.host.mem 0x100000 ((code :: (ws ++ List.replicate (7 - ws.length) 0)).flatMap fun w => toBytes 8 w) } } : State).setFn 0
    { s.fn 0 with cbase := 0x100000#64, cqbase := 0x200000#64, lgsize := 0x444#16, cprod := 1#32 }

def recordWords (img : Nat) : List Nat :=
  [0x10000, 0xABC, 0xF000000020000, 77, 0x40000, 0, img, 0, 1 + 8 + 16 + 2 ^ 16, 2 ^ 16] ++ List.replicate 10 0 ++
    [5 + 2 ^ 5 + 17 * 2 ^ 32 + 2 ^ 37 + 2 ^ 40 + 2 ^ 41, 100, 8 + 2 ^ 6 + 2 ^ 11 + 2 ^ 19] ++ List.replicate 9 0
def s13 : State := { s3 with card := { s3.card with partitions := [part0] } }
def s13l (bad : Bool) : State := { s13 with card := { s13.card with
  unitTlb := [⟨1, 0, 16, 0xF000000010000 / 2 ^ 31, ⟨.local 0x80000000, true, true, true, false, false, 31⟩⟩]
  hbm := withBytes s13.card.hbm <|
    [(0x80010002, 1#8), (0x80010008, 0xBC#8), (0x80010009, 0x0A#8), (0x80010012, 0x02#8), (0x80010016, 0x0F#8), (0x80010018, 77#8), (0x80010022, 4#8)] ++
    (if bad then [(0x80010030, 1#8)] else []) ++
    [(0x80010033, 1#8), (0x80010040, 25#8), (0x80010042, 1#8), (0x8001004A, 1#8), (0x800100A0, 37#8), (0x800100A4, 49#8), (0x800100A5, 3#8),
      (0x800100A8, 100#8), (0x800100B0, 72#8), (0x800100B1, 8#8), (0x800100B2, 8#8)] } }

def operands (ws : List Nat) : List Nat := ws ++ List.replicate (7 - ws.length) 0

theorem witness_CommandResults :
    ((commanded s13 0x0C [1, 5]).ordered 0 0x0C 0 (operands [1, 5]) ∧ 1 ≤ 1 ∧ (s13.card.partition 0).isSome = true) ∧
    (commanded s13 0x07 [0, 0xFF, 3, 0xFF, 1 + 15 * 2 ^ 16, 77]).ordered 0 0x07 0 (operands [0, 0xFF, 3, 0xFF, 1 + 15 * 2 ^ 16, 77]) ∧
    ((15 + 15 * 2 ^ 16) / 2 ^ 12 % 16 = 0 ∧ 0 < (1 + 15 * 2 ^ 16) % 2 ^ 12 ∧ (1 + 15 * 2 ^ 16) % 2 ^ 12 ≤ (1 + 15 * 2 ^ 16) / 2 ^ 16 ∧
      s13.card.launches = [] ∧ (s13.card.partitions.filter fun p => p.colour != 0) = [] ∧ s13.card.partition 0 = some part0 ∧ part0.logs ≠ 0) ∧
    (commanded s13 0x0F [0, 0xF000000010000, 1]).ordered 0 0x0F 0 (operands [0, 0xF000000010000, 1]) ∧
    (shared 0xF000000010000 = true ∧ ofBytes (s13.homeBytes 0 16 0xF000000010000 8) < 137330) ∧
    (commanded s13 0x11 [1, 2, 3, 4, 0x400000]).ordered 0 0x11 0 (operands [1, 2, 3, 4, 0x400000]) ∧
    (let f := { s13.fn 0 with busy := some (5, 0, 1, 0) }
     let s := s13.setFn 0 f
     (s.fn 0).busy = some (5, 0, 1, 0) ∧ f.cprod = f.ccons ∧ s.card.partition 0 = some part0 ∧ 0 ≤ (part0.token 1 - 0#32).toInt ∧
      (part0.token 1 - 1#32).toInt < 0) := by
  dsimp only
  and_intros <;> decide

/-- A migration of page 0 of ASID 1 before each of its steps. -/
def migration1 (steps : Nat) : Migration := ⟨0, 5, 1, 0, 0x20000, 0, 0x100000000, 31, steps⟩

set_option maxRecDepth 20000 in
theorem witness_PageCommandResults :
    ∃ x, s13.card.context 1 = some x ∧ s13.card.ownAsid 0 1 = true ∧
    ((commanded s13 0x03 [1, 0x80000000, 3, 0x1F]).ordered 0 0x03 0 (operands [1, 0x80000000, 3, 0x1F]) ∧ 0x80000000 % 2 ^ pageLg 3 = 0 ∧
      ∃ k, s13.card.mapWalk 1 3 0x1F#64 0x80000000 (Config.choice 0) [4, 3, 2, 1] x.root = .ok k ∧ k.sideLogs = []) ∧
    ((commanded s13 0x04 [1, 0, 1]).ordered 0 0x04 0 (operands [1, 0, 1]) ∧
      ∃ pages, s13.card.pagesFrom x.root 1 0 = some pages ∧ s13.drainHolds 1 (pages.filterMap Prod.snd) = false ∧ s13.card.hostLines = [] ∧
        s13.card.migrations = [] ∧ leafOk 1 0x8000001F#64 = true ∧ ∀ p ∈ remapLeaves 0x8000001F#64 pages, leafOk p.1.level p.2 = true) ∧
    ((commanded s13 0x06 [1, 0, 0x80000000]).ordered 0 0x06 0 (operands [1, 0, 0x80000000]) ∧
      ∃ q, s13.card.leafAt 0 [4, 3, 2, 1] x.root = some q ∧ 0x80000000 % 2 ^ q.lg = 0 ∧ 0x80000000 + 2 ^ q.lg ≤ hbmBytes ∧
        (s13.card.entryAt q.entry).getLsbD 7 = false ∧ entryAddr (s13.card.entryAt q.entry &&& ~~~(0x80#64)) + 2 ^ q.lg ≤ 0x80000000) :=
  ⟨_, rfl, by decide, ⟨by unfold State.ordered; decide, by decide, _, rfl, rfl⟩,
    ⟨by unfold State.ordered; decide, _, rfl, by decide, rfl, rfl, by decide, by decide⟩,
    ⟨by unfold State.ordered; decide, _, rfl, by decide, by decide, by decide, by decide⟩⟩

theorem witness_PageCommandResults_steps :
    (∀ n < 4, ({ s13.card with migrations := [migration1 n] } : Card).migrations.find? (fun m => m.fn == 0) = some (migration1 n)) ∧
    (s13.fn 0).cprod = (s13.fn 0).ccons ∧
    overlap ((migration1 2).old, (migration1 2).old + 2 ^ (migration1 2).lg) ((migration1 2).new, (migration1 2).new + 2 ^ (migration1 2).lg) = false ∧
    Memory.wf s13.card.hbm = true := by
  decide

set_option maxRecDepth 20000 in
theorem witness_LaunchCommandResults :
    (let words (s : State) := (List.range 32).map fun i => ofBytes (s.homeBytes 0 (commandColour 0) (0xF000000010000 + 8 * i) 8)
     let raw (img : Nat) := rawLaunch ((recordWords img).map (BitVec.ofNat 64))
     (commanded (s13l false) 0x01 [0xF000000010000]).ordered 0 0x01 0 (operands [0xF000000010000]) ∧ shared 0xF000000010000 = true ∧
      ((s13l false).homeOf 0 (commandColour 0) 0xF000000010000).isSome = true ∧
      words (s13l false) = recordWords 0x1000000 ∧ (s13l false).recordStatus 0 (raw 0x1000000) = none ∧ (raw 0x1000000).isPair = false ∧
      words (s13l true) = recordWords 0x1000001 ∧ (s13l true).recordStatus 0 (raw 0x1000001) = some 2 ∧
      ((s13l true).card.asidOk (raw 0x1000001) && (raw 0x1000001).doneOk) = true) ∧
    (launch1.id.toNat = 1 ∧ launch1.pair = .single) ∧
    (s13.card.partition 0 = some part0 ∧ part0.preempting = none ∧ part0.preempted = false ∧ part0.reply = none ∧ s13.card.preemptible 0 = true) ∧
    (part0.hasCore (16 * 0 + 5) = true ∧ s13.card.occupied 5 = false ∧ 0 + 5 * 2 ^ 8 + 1 * 2 ^ 16 + 1 * 2 ^ 24 = 0x1010500) ∧
    (s13.card.coreOwner 255 = none ∧ (s13.card.coreOwner 5).isSome = true) ∧
    (let r : Region := ⟨0, 0, 5, 1, 1, 1, false, some (0, 5), none⟩
     ({ s13.card with regions := [r] } : Card).regions[0]? = some r ∧ r.complete = false) := by
  dsimp only
  and_intros <;> decide

/-- launch1 with its sheaf and its strand as given, on a card whose strand's core does not run. -/
def launchOf1 (h : SheafPhase) (i : StrandInfo) : Launch := { launch1 with sheaves := [⟨0, false, 0, h⟩], strands := [i] }
def s14 (l : Launch) : State := { s7 false with
  core := { (s7 false).core with run := .idle }, card := { (s7 false).card with launches := [l], clocks := Vector.replicate 2 1000 } }
def stopped1 : StrandInfo := { strand1 with images := 1, stopped := true, kept := [cause15, cause12] }

theorem witness_StrandStartResults :
    (let l := launchOf1 (.decided 900) { strand1 with ran := false }
     (s14 l).card.launchAt l.id = some l ∧ l.sheaves.find? (fun k => k.index == 0) = some ⟨0, false, 0, .decided 900⟩ ∧
      l.strandsOf 0 = [{ strand1 with ran := false }] ∧ (s14 l).sheafDue l ⟨0, false, 0, .decided 900⟩ = true ∧ strand1.core = some (s14 l).core.num) ∧
    (let l := launchOf1 (.decided 900) stopped1
     l.strands.find? (fun j => j.index == 0 && j.stopped) = some stopped1 ∧ 900 ≤ (s14 l).card.clockOf l.colour ∧ (s14 l).core.quiet = true ∧
      (s14 l).card.restitching (s14 l).core.num = false) := by
  dsimp only
  and_intros <;> decide

/-- A launch that waits since clock 0, with core 0 reserved, and one of lower priority that holds it. -/
def waiting1 : Launch := { launchOf1 .waiting { strand1 with core := none, ran := false } with
  id := 2#16, record := record1.set 20 0x22100000026#64, headSince := some 0, reservation := some ⟨[0], 10⟩ }
def s14w : State := { s14 launch1 with card := { (s14 launch1).card with launches := [launch1, waiting1] } }

theorem witness_DispatcherResults :
    (s14w.card.partition 0 = some part0 ∧ ({ s14w.core with run := .ended } : Core).run = .ended ∧ s14w.card.colls = []) ∧
    (let l := launchOf1 .running { strand1 with ended := true }
     (s14 l).card.launchAt 1#16 = some l ∧ l.finished = false ∧ l.pair = .single ∧ (∀ i ∈ l.strands, i.ended = true) ∧
      (∀ c ∈ (s14 l).card.clusters.toList, c.objects = []) ∧ (s14 { l with finished := true }).card.leaves ((s14 l).core :: (s14 l).card.cores) 1#16 = false ∧
      (s14 l).card.hostLines = [] ∧ (∃ i ∈ launch1.strands, i.ended = false)) ∧
    (s14w.card.launchAt 2#16 = some waiting1 ∧ waiting1.waiting = true ∧ waiting1.pat = 100 ∧ 0 + waiting1.pat ≤ s14w.card.clockOf waiting1.colour ∧
      (s14w.card.launches.map Launch.id).Nodup ∧ s14w.card.partition waiting1.colour = some part0) ∧
    (10 + waiting1.pat ≤ s14w.card.clockOf waiting1.colour ∧ part0.firstUp = none ∧ s14w.card.occupantsLower waiting1 = true ∧
      s14w.card.preemptible waiting1.colour = true ∧ s14w.card.occupied 0 = true) ∧
    (s14w.card.clockOf waiting1.colour < 950 + waiting1.pat) := by
  dsimp only
  and_intros <;> decide

theorem witness_DispatcherResults_ends :
    (let l := { launch1 with pair := .reserved }
     let k : Card := { s3.card with launches := [l], bridge := { s3.card.bridge with up := true, cardZero := true } }
     k.launchAt 1#16 = some l ∧ k.bridge.cardZero = true ∧ k.bridge.up = true ∧ l.first = none ∧ s3.peer.launchAt 1#16 = none) ∧
    (let p := { part0 with preempting := some 0, patience := 100 }
     let s : State := { s14 launch1 with card := { (s14 launch1).card with partitions := [p] } }
     s.card.partition 0 = some p ∧ s.colourEmpty 0 = true ∧ p.reply = none ∧ p.retiring = none ∧
      (∀ c ∈ s.core :: s.card.cores, p.holds c = true → c.run = .idle ∧ c.drainedOut = true) ∧ 0 + p.patience ≤ s.card.clockOf 0 ∧
      (∀ c ∈ s.card.cores, c.run ≠ .running) ∧ s10p.core.run = .running ∧ s10p.core.drainedOut = false ∧ p.holds s10p.core = true) := by
  dsimp only
  and_intros <;> decide

/-- A granule of the window at 0x40000 with a dirty byte. -/
def s15 : State := { s9z with core := { s9z.core with stash := s9z.core.stash.setGranule 0 ⟨true, false, 0#8, 1#128⟩ } }
def errors15 : List (Nat × Nat) := List.replicate 63 (5, 0)

set_option maxRecDepth 20000 in
theorem witness_ErrorEventResults :
    ((s15.coreAt 0).isSome = true ∧ s15.core.windowOff 1 0x40000 = some 0 ∧ (s15.core.stash.granule 0).dmask ≠ 0#128 ∧
      (s9z.core.stash.granule 0).dmask = 0#128 ∧ s15.core.windowOff 1 0x10000 = none ∧ s15.core.run = .running ∧
      ({ s15.core with run := .idle } : Core).run ≠ .running) ∧
    (((s12 false).clusterAt 0).find (tagOf 1 0x10000) = some (fullLine false) ∧ (fullLine false).dmask = 0#128 ∧
      ((s12 true).clusterAt 0).find (tagOf 1 0x10000) = some (fullLine true) ∧ (fullLine true).dmask ≠ 0#128 ∧
      (fullLine true).wmask.getLsbD (coreInCluster (s12 true).core.num) = true ∧ clusterOf (s12 true).core.num = some 0 ∧ (s12 true).card.cores = [] ∧
      (s3.clusterAt 0).find (tagOf 1 0x10000) = none) ∧
    ((s11 [] [log1 [entry1 red1] false false]).card.sideLog 4 ((4 * 0) / 2 ^ 32)).entries.find? (fun e => e.seq == 0 && e.state == .pending) = some (entry1 red1) ∧
    ((s3.card.service.coreErrors.filter fun q => decide (0 < q.2 + 2 ^ 30)).filter fun q => q.1 == 5).length < 63 ∧
    (countAt [((5, 6), 15)] (5, 6) = 15 ∧ s3.card.service.mappedOut = [] ∧ (s3.card.l2.map L2Line.tag).Nodup) ∧
    (((errors15.filter fun q => decide (0 < q.2 + 2 ^ 30)).filter fun q => q.1 == 5).length = 63 ∧ s13.card.coreOwner 5 = some part0 ∧
      s13.card.preemptible 0 = true ∧ part0.preempting = none) ∧
    (5 ∉ s3.card.service.spared ∧ 5 ∈ ({ s3.card.service with spared := [5] } : Service).spared) := by
  and_intros <;> decide

/-- Port 1 with a transaction of each kind received; both cards have the mappings of card0, the bridge is up. -/
def request1 (kind op : Nat) (payload : List Byte) : Transaction := ⟨kind, 0, 1, 3, op, 0, 0, 0x10000, payload⟩
def s15b (t : Transaction) : State := { s3 with
  card := { s3.card with bridge := { s3.card.bridge with
    up := true, ports := s3.card.bridge.ports.set 1 { s3.card.bridge.ports[1] with working := true, slots := t.slots } } }
  peer := { s3.card with bridge := { s3.card.bridge with up := true } } }

set_option exponentiation.threshold 512 in
set_option maxRecDepth 20000 in
theorem witness_BridgeEventResults :
    (∀ t ∈ [request1 1 0 [], request1 2 0 [1#8, 2#8], request1 3 0x10 (List.replicate 16 3#8), request1 4 0 (List.replicate 80 3#8), request1 5 0 [],
      request1 6 0 []], (nextTransaction ((s15b t).port 1).slots).map Prod.snd = some [] ∧
      (nextTransaction ((s15b t).port 1).slots).map (fun p => p.1.kind) = some t.kind ∧ ((s15b t).port 1).working = true ∧
      ((s15b t).port 1).retraining = false ∧ ((s15b t).port 1).replay = []) ∧
    ((s15b (request1 1 0 [])).card.bridge.up = true ∧ (s15b (request1 1 0 [])).peerStatus .load (request1 1 0 []) 1 = 0 ∧
      (s15b (request1 1 0 [])).peerStatus .load { request1 1 0 [] with va := 0x80000000 } 1 ≠ 0 ∧
      (s15b (request1 2 0 [])).peerStatus .store (request1 2 0 [1#8]) 1 = 0 ∧ (s15b (request1 2 0 [])).card.hostLines = [] ∧
      (s15b (request1 3 0 [])).peerStatus .atomic (request1 3 0x10 []) 8 = 0) := by
  and_intros <;> decide

set_option exponentiation.threshold 512 in
set_option maxRecDepth 200000 in
theorem witness_BridgeEventResults_flits :
    (let b := makeFlit 1 0 0 []
     flitOk b = true ∧ flitKind b = 1 ∧ flitSeq b = 0 ∧ (flitAck b).testBit 15 = false ∧ flitOk (b.set 5 1#8) = false) ∧
    (let f : Flit := ⟨9, [], 15⟩
     (9 + 4096 - 8 % 4096) % 4096 < 2048 ∧ 15 ≤ f.tries) := by
  dsimp only
  and_intros <;> decide

set_option maxRecDepth 20000 in
theorem witness_BridgeEventResults_ports :
    (let s := s15b (request1 1 0 [])
     let b := { s.card.bridge with ports := s.card.bridge.ports.set 0 { s.card.bridge.ports[0] with working := true } }
     let t : State := { s with card := { s.card with bridge := b }, peer := { s.peer with bridge := b } }
     (∃ m, m < 4 ∧ m ≠ 1 ∧ (t.port m).working = true) ∧ (∃ q ∈ t.peer.bridge.ports.toList, q.working = true) ∧ (t.port 1).lanes = 8 ∧
      ({ t.port 1 with retraining := true } : Port).retraining = true ∧ (∀ k ∈ [s3.card, s3.peer], ∀ l ∈ k.sideLogs, l.replaying = false) ∧
      s3.card.bridge.up = false) ∧
    (let s : State := { s10 .peer none with core := { (s10 .peer none).core with sent := true } }
     s.drainSent = some ⟨tagOf 1 0x10000, .peer, [7#8]⟩ ∧ s.core.apertureAt 0x10000 = none ∧ s.peer.hostLines = [] ∧
      ({ s.card.bridge with domains := [(0, 2)] } : Bridge).portOf s.core.num = some 2) := by
  dsimp only
  refine ⟨⟨⟨0, ?_⟩, ?_⟩, ?_⟩
  all_goals and_intros
  all_goals decide

set_option maxRecDepth 20000 in
theorem witness_PowerResetAttestationResults :
    (∀ l ∈ s3.card.launches, ∀ i ∈ l.strands, i.core = none) ∧ s3.card.power.state = .active ∧ (Vector.replicate 2 (2 ^ 25))[0] ≥ s3.card.power.lastUse + 2 ^ 24 ∧
    s3.card.clocks[0] < s3.card.power.lastUse + 2 ^ 24 ∧ (∀ i < 256, clusterOf i = some 31 → s3.card.occupied i = false) ∧
    (∃ i < 256, clusterOf i = some 0 ∧ (s7 true).card.occupied i = true) ∧ (∀ d ∈ s3.peer.cores, d.sent = false) ∧
    (s3.coreAt 0).isSome = true ∧ s3.core.run ≠ .idle := by
  refine ⟨by decide, by decide, by decide, by decide, by decide, ⟨0, by decide⟩, by decide, by decide, by decide⟩

set_option maxRecDepth 20000 in
theorem witness_StepRunsDecoded :
    (let s := fetched (.add 5#6 1#6 2#6)
     let d := s.deliver (lineOf s.core.pc).toNat
     s.agenda = [] ∧ s.core.run = .running ∧ s.asyncCause = none ∧ s.core.parked = .free ∧ s.core.waiting = none ∧ s.core.fw = [] ∧
      validPc s.core.pc = true ∧ s.fetchFault s.core.pc 0#64 = none ∧ s.lineLost 0 = false ∧ lparOk (lineWord d.2) = true ∧ sparOk d.2 0 = true ∧
      (lineWord d.2).extractLsb' 9 7 = 0#7 ∧ (lineWord d.2).extractLsb' 22 10 = 0#10 ∧ decode (slotOf d.2 0) = .ok (.add 5#6 1#6 2#6)) ∧
    (let s := waitsFor s3 (.sleep 5#6 0#6)
     s.core.waiting ≠ none ∧ s.background.core.fw = [] ∧ ∃ v, s.background.fetch = .ok (v, .sleep 5#6 0#6)) ∧
    (∃ x, ({ fetched .nop with core := { (fetched .nop).core with pc := 1#64 } } : State).fetch = .error x) := by
  refine ⟨by decide, ⟨by decide, by decide, _, rfl⟩, _, rfl⟩

theorem witness_StepRunsDecoded_turns :
    (let s : State := { s3 with agenda := [.event .storeDrainWrite, .event .nop, .hostStore 0x1000 [1#8], .focusCore 1, .swapCards] }
     s.agenda ≠ [] ∧ encode .storeDrainWrite = none ∧ (encode .nop).isSome = true) ∧
    (State.reset.agenda = [] ∧ State.reset.core.run ≠ .running) ∧ (s10p.agenda = [] ∧ s10p.core.run = .running ∧ s10p.asyncCause.isSome = true) ∧
    (({ s3.core with parked := .preempting } : Core).parked ≠ .free ∧ s3.core.supervisor = false ∧ s3.asyncCause = none) := by
  decide

theorem witness_Encodings : wellFormed (.cmpski 9#6 2#4 3#2 5#64) = true ∧ (encode (.cmpski 9#6 2#4 3#2 5#64)).isSome = true ∧
    (decode ((0x20145000#32 : BitVec 32) ++ 0#32 ++ 1#32)).toOption = some (.addi 5#6 5#6 1#64) := by
  decide

theorem witness_MemoryFormKept : s3.memoryForm ∧ (∃ t, ({ s3 with core := { s3.core with run := .idle } } : State).nextTurn = .next t) := by
  refine ⟨?_, _, rfl⟩
  unfold State.memoryForm Card.memoryForm Core.memoryForm
  decide

/-! ### What the checks of WellFormed refuse: a term for each -/

theorem test_wellFormed_scalar : ∀ i ∈ [Instr.cmp 1#6 2#6 3#6 10#4, .cmpi 1#6 2#6 0#64 11#4, .shli 1#6 2#6 64#64, .shri 1#6 2#6 64#64, .sari 1#6 2#6 64#64,
    .sext 1#6 2#6 0#64, .zext 1#6 2#6 65#64, .fadd 1#6 2#6 3#6 true 5#3, .fsqrt 1#6 2#6 true 7#3, .fcmp 1#6 2#6 3#6 true 6#4, .fcvt 1#6 2#6 2#3 2#3 0#3,
    .fcvt 1#6 2#6 4#3 0#3 0#3, .br 1#6 2#6 10#4 0#3 0#64, .jmp 5#3 0#64, .loop 1#6 6#3 0#64, .cmpsk 1#6 2#6 0#4 0#2, .ld 1#6 2#6 0#64 3#2 true,
    .aadd 1#6 2#6 3#6 1#2 0#2 false false, .acas 1#6 2#6 3#6 4#6 0#2 0#2 false false, .red 1#6 2#6 0#2 3#2 0#2, .red 1#6 2#6 0#2 0#2 3#2,
    .mts 1#6 0x010#12, .stmap 8#8 1#6 2#6 12#32, .stunmap 8#8, .stflush 0#8 0#4, .stflush 1#8 2#4, .hint 0xEF#8 0#88, .qfence 0#32, .qfence 0x400#32],
    wellFormed i = false := by decide

theorem test_wellFormed_tiles : ∀ i ∈ [Instr.tzero 1#5 0#3 15#5 0#4, .tld 1#5 0#3 31#5 1#6 2#6 0#6 0#4 0#32, .tldx 1#5 0#3 2#5 1#6 2#6 32#6 0#4 0#32,
    .tmovx 1#5 2#6 0x4000#32, .tmovs 1#5 2#5 3#6 0x4000#32, .treshape 1#5 2#5 0#3 15#5 0#4, .mdrain 1#5 0#3 0#3 1#5 0#4 0#32 0#2 false false,
    .mdrain 1#5 0#3 0#3 13#5 0#4 0#32 0#2 false true, .mdrain 1#5 0#3 0#3 2#5 0#4 0x40#32 0#2 false false, .maccld 0#3 1#5 0x80#32 false, .wdrain 1#5 0#2 2#4],
    wellFormed i = false := by decide

theorem test_wellFormed_vectors : ∀ i ∈ [Instr.vadd 1#5 2#5 3#5 1#6 0#3 0#2 false, .vadd 1#5 2#5 3#5 0#6 1#3 0#2 false, .vmin 1#5 2#5 3#5 0#6 4#3,
    .vmul 1#5 2#5 3#5 0#6 0#3 2#2 false, .vshr 1#5 2#5 3#5 0#6 0#3 2#4, .vcmp 1#5 2#5 3#5 0#6 0#3 0#3 2#5 0#4, .vcmp 1#5 2#5 3#5 0#6 0#3 0#3 8#5 11#4,
    .vcvt 1#5 2#5 0#5 3#5 0#3 2#5 0#4 0#2 false false, .vcvt 1#5 2#5 0#5 1#5 0#3 7#5 0#4 0#2 false false, .vcvt 1#5 2#5 0#5 0#5 0#3 12#5 0#4 0#2 false false,
    .vrand 1#5 0#3 1#5 0#4, .viota 1#5 0#3 3#5 0#4 1#6 0#32, .vclamp 1#5 2#5 3#5 0#5 1#6 0#32 1#3, .vclamp 1#5 2#5 3#5 4#5 1#6 0#32 0#3,
    .vrsum 1#5 2#5 0#3 1#5 0#2 false, .vrmax 1#5 2#5 0#3 8#5, .vcmin 1#5 2#5 0#3 13#5, .vbcast 1#5 2#5 0#3 64#32 1#4, .vshuf 1#5 2#5 3#5 1#3,
    .vscan 1#5 2#5 3#4 0#2 false, .vrdot 1#5 2#5 3#5 0#3 10#5 0#2 false 0#3], wellFormed i = false := by decide

theorem test_wellFormed_engines : ∀ i ∈ [Instr.skupd 1#6 2#5 3#6 4#5 0#4, .skupd 1#6 2#5 3#6 4#5 1#4, .skqry 1#5 2#6 0#6 4#5 2#4 0#3, .skstat 1#6 2#6 3#4,
    .gqpush 1#6 2#5 16#8 0#32 false 0#2, .gqpop 1#6 2#5 0#8 32#32 false 0#2, .gqstat 1#6 0#8 0#32 2#4, .cpygo 1#6 8#8, .lkred 1#6 2#6 3#6 16#8,
    .syarr 1#6 64#8 false, .sybc 1#6 2#6 3#6 0#8 0#4 false false, .sybc 1#6 2#6 3#6 0#8 2#4 false false, .syred 1#6 2#6 3#6 0#8 0#4 true false false,
    .syred 1#6 2#6 3#6 0#8 9#4 false false false], wellFormed i = false := by decide

/-! ### Words written out from R66-R81 -/

theorem test_decode_system : decode (0x03000000#32 ++ 0#32 ++ 7#32) = .ok (.syscall 7#64) ∧
    decode (0x05040000#32 ++ 0x00100000#32 ++ 0#32) = .ok (.mfs 1#6 0x010#12) ∧ decode (0x01000000#32 ++ 0#32 ++ 0#32) = .ok .halt ∧
    decode (0xF0000000#32 ++ 0#32 ++ 5#32) = .ok (.hint 0xF0#8 5#88) := by decide

theorem test_decode_scalar : decode (0x100420C0#32 ++ 0#32 ++ 0#32) = .ok (.add 1#6 2#6 3#6) ∧
    decode (0x130420C0#32 ++ 0x00010000#32 ++ 0#32) = .ok (.mulh 1#6 2#6 3#6 true) ∧
    decode (0x35042000#32 ++ 0x00050000#32 ++ 0#32) = .ok (.fsqrt 1#6 2#6 true 2#3) ∧
    decode (0x40042160#32 ++ 0#32 ++ 2#32) = .ok (.br 1#6 2#6 1#4 3#3 2#64) ∧
    decode (0x50042006#32 ++ 0xFFFFFFFF#32 ++ 0xFFFFFFF8#32) = .ok (.ld 1#6 2#6 (-8#64) 2#2 true) := by decide

theorem test_decode_tiles : decode (0x64180000#32 ++ 0x12100000#32 ++ 0#32) = .ok (.tzero 3#5 1#3 4#5 2#4) ∧
    decode (0x7700000A#32 ++ 0#32 ++ 0#32) = .ok (.mzero 5#3) ∧ decode (0x8E188000#32 ++ 0#32 ++ 0#32) = .ok (.vneg 3#5 2#5) ∧
    decode (0xA6188000#32 ++ 0#32 ++ 0#32) = .ok (.vtrans 3#5 2#5) := by decide

theorem test_decode_engines : decode (0xB6000000#32 ++ 0#32 ++ 0#32) = .ok .skfence ∧ decode (0xC5040000#32 ++ 0#32 ++ 0#32) = .ok (.msgwait 1#6) ∧
    decode (0xC80420C0#32 ++ 0#32 ++ 0#32) = .ok (.cpywait 1#6 2#6 3#6) ∧ decode (0xD3042000#32 ++ 0#32 ++ 0#32) = .ok (.lkstat 1#6 2#6) ∧
    decode (0xE5040000#32 ++ 0x01F80000#32 ++ 0#32) = .ok (.sygen 1#6 63#8) ∧ decode (0xE9000000#32 ++ 3#32 ++ 0#32) = .ok (.acq 3#2) := by decide

theorem test_decode_refuses : decode (0#32 ++ 0#32 ++ 1#32) = .error .reservedField ∧ decode (0x3A000000#32 ++ 0#32 ++ 0#32) = .error .unassignedOpcode ∧
    decode (0x400420A0#32 ++ 0#32 ++ 0#32) = .error .reservedValue ∧ decode (0x100420C0#32 ++ 0x00010000#32 ++ 0#32) = .error .reservedField ∧
    decode (0xFF000000#32 ++ 0#32 ++ 0#32) = .error .illegalOpcode := by decide

/-! ### Single steps, with results worked out by hand from the rules -/

/-- A register after an instruction. -/
def after (i : Instr) (s : State) (r : BitVec 6) : Option Word := match exec i s with
  | .next t => some (t.core.xr r)
  | _ => none

/-- −3 / 7 truncates to 0 and leaves −3; a wrap; bits; FP32 1.0 + 3.0 = 4.0 (0x40800000). -/
theorem test_results : after (.div 5#6 2#6 1#6 false) s1 5#6 = some 0#64 ∧ after (.rem 5#6 2#6 1#6 false) s1 5#6 = some (-3#64) ∧
    after (.muli 5#6 2#6 0x8000000000000000#64) s1 5#6 = some 0x8000000000000000#64 ∧ after (.popc 5#6 2#6) s1 5#6 = some 63#64 ∧
    after (.add 0#6 1#6 1#6) s1 0#6 = some 0#64 ∧ after (.fadd 5#6 1#6 2#6 false 0#3) s2 5#6 = some 0x40800000#64 := by decide

/-- The bytes 1, 0x82, 3, 0x84 of s3 as a signed word. -/
theorem test_load_sign_extends : after (.ld 5#6 1#6 0#64 2#2 true) s3 5#6 = some 0xFFFFFFFF84038201#64 := by decide

set_option maxRecDepth 200000 in
/-- The first step after reset runs the instruction placed for it: ADDI x1, x0, 5. -/
theorem test_step_after_reset : (match step (State.reset.withFetchWord 96 0x200400000000000000000005) with
    | .next t => some (t.core.xr 1#6, t.core.pc)
    | _ => none) = some (5#64, 12#64) := by decide

/-! ### Witnesses for the clauses on traps, faults and waits -/

theorem witness_FloatCompareTraps :
    (s2t.core.fptrap.getLsbD 4 = true ∧ (decodeFloat fp32 ((s2t.core.xr 3#6).toNat % 2 ^ 32)).isSnan = true ∧
      (decodeFloat fp32 ((s2t.core.xr 3#6).toNat % 2 ^ 32)).isNan = true) ∧
    ((toIntRange (floatMode s2t 0#3) (-2 ^ 31) (2 ^ 31 - 1) (decodeFloat fp32 ((s2t.core.xr 3#6).toNat % 2 ^ 32))).2 &&&
      s2t.core.fptrap).getLsbD (5 - 1) = true := by
  decide

/-- A line at the peer, whose bridge is down. -/
def peerVa : Nat := 0x100000000

set_option maxRecDepth 20000 in
theorem witness_BranchResults_illegal :
    (s2c.fetchFault 0x10040#64 0#64 = none ∧ s2c.lineLost 0x10040 = false ∧ lparOk (lineWord (s2c.deliver 0x10040).2) = true ∧
      (lineWord (s2c.deliver 0x10040).2).getLsbD (pcOffset 0x10040#64 / 12) = false) ∧
    (validPc (BitVec.ofNat 64 peerVa) = true ∧ s2c.fetchFault (BitVec.ofNat 64 peerVa) 0x43#64 = none ∧ s2c.lineLost peerVa = true) := by
  and_intros <;> decide

/-- A window at addresses that no page maps. -/
def s17w : State := { s3 with core := { s3.core with stash := s3.core.stash.setWindow 0 (some ⟨1, 0x80000000, 0, 12⟩) } }

/-- The cluster of the strand has an object at 0x40000, readonly; the one of s7p is of class package. -/
def s17o : State := s7o.setCluster 0 { s7o.clusterAt 0 with objects := [{ object1 with cls := .readonly }] }

set_option maxRecDepth 20000 in
theorem witness_ScalarAddressTraps_more :
    (s3.accessFault .load peerVa (peerVa + 4) = none ∧ s3.bridgeFault peerVa (peerVa + 4) ≠ none ∧ peerVa % 4 = 0) ∧
    (s17w.inStash 0x80000000 = true ∧ ∃ b d, s17w.accessFault .store 0x80000000 0x80000004 = some (b, d)) ∧
    (s17o.inStash 0x40000 = false ∧ s17o.readonlyByte 0x40000 0x40004 ≠ none) ∧ (0x10001#64).toNat % 4 ≠ 0 := by
  refine ⟨by decide, ⟨by decide, _, _, rfl⟩, by decide, by decide⟩

/-- The strand on a badger core, with four copy channels, and one with every exception enabled and a signalling NaN in t1. -/
def s17b : State := { s3 with core := { s3.core with kind := .badger, num := 256, limits := ⟨32, 8, 4, 4, 256⟩ } }
def s17n : State := withT s6t 1#5 (mkTile 1 8 2#5 0#4 [[0x7F800001, 0xBF800000]])

theorem witness_MatrixEngineTraps :
    (s17b.core.kind ≠ .compute ∧ (∀ t ∈ [1#5, 2#5, 31#5], t.toNat < s17b.core.limits.tiles) ∧ (7#3).toNat < s17b.core.limits.acc ∧
      (3#2).toNat < s17b.core.limits.pins) ∧
    (s5.core.kind = .compute ∧ (7#3).toNat % 2 ≠ (2#2).toNat % 2) ∧ ((s7 true).core.kind = .compute ∧ (s7 true).core.supervisor = true) := by
  decide

theorem witness_VectorTraps_more :
    let a := s17n.core.tr 1#5
    (tilesAllowed s17n [6#5, 1#5] ∧ a.Shaped ∧ a.rowbytes ≤ 128 ∧ a.rows ≤ 64 ∧ a.fmt = 2#5) ∧
    ((minMaxCode fp32 true (a.el 0 0) (operandEl s17n 1#3 1#5 0#5 5#6 0 0)).2 &&& s17n.core.fptrap).getLsbD (5 - 1) = true ∧
    ((faithfulFn 0x92#8 fp32 (a.el 0 1)).flags &&& s17n.core.fptrap).getLsbD (5 - 1) = true := by
  dsimp only
  and_intros <;> decide

set_option maxRecDepth 20000 in
theorem witness_SpecialRegisterResults_faults :
    (s17b.core.kind ≠ .compute ∧ ¬channelAllowed s17b 4 ∧ channelAllowed s17b 3) ∧ (∀ p ∈ specialRegisters s17b, p.1 ≠ 0x003) ∧
    (({ s17b with core := { s17b.core with ps := 0x8000#64 } } : State).core.supervisor = true) ∧
    ((0x1#64).toNat / 128 % 256 < 4 ∧ (0x1#64).toNat % 4096 ≠ 0 ∧ (16#64).toNat > part0.asidLast ∧ (s7 true).card.partitions = [part0]) := by
  refine ⟨⟨by decide, ?_, .inr (by decide)⟩, by decide, by decide, by decide⟩
  rintro (h | h)
  · exact absurd h (by decide)
  · exact absurd h (by decide)

theorem witness_SystemResults_waits : s3.core.inbox = [] ∧ s3.core.cycle.toNat < (s3.core.xr 1#6).toNat := by decide

/-- Objects that fill the table of cluster 0. -/
def s17f : State := s7o.setCluster 0 { s7o.clusterAt 0 with
  objects := (List.range 64).map fun i => { object1 with base := 0x80000 + 0x100 * i, rows := 1 } }

set_option maxRecDepth 100000 in
theorem witness_ObjectAndWindowResults_faults :
    ((s17b.core.kind ≠ .compute) ∧ (0x10021#64).toNat % 32 ≠ 0 ∧ (∃ b d, s7o.accessFault .load 0x80000000 0x80000020 = some (b, d))) ∧
    (s7o.accessFault .load 0x10060 0x10080 = none ∧ s7o.loadClear (0x10060, 0x10080) = true ∧
      objectOf (s7o.descriptor 0x10060) s7o.core.launchId = none) ∧
    (objectOf (s7p.descriptor 0x10020) s7p.core.launchId = some object1 ∧ ∃ p ∈ (s7p.clusterAt 0).objects, overlap p.box object1.box = true) ∧
    (objectOf (s17f.descriptor 0x10020) s17f.core.launchId = some object1 ∧ (s17f.clusterAt 0).objects.length = 64 ∧
      (∀ p ∈ (s17f.clusterAt 0).objects, overlap p.box object1.box = false)) ∧
    (∀ p ∈ (s7o.clusterAt 0).objects, p.base ≠ field (s7o.descriptor 0x10020) 0 52 ∨ p.launch ≠ s7o.core.launchId) := by
  refine ⟨⟨by decide, by decide, _, _, rfl⟩, by decide, ⟨by decide, object1, by decide, by decide⟩, ?_, by decide⟩
  and_intros <;> decide

theorem witness_ObjectAndWindowResults_badWindows :
    (¬12 ≤ (11#32 |>.extractLsb' 0 5).toNat) ∧ (0x100800#64).toNat % 2 ^ 14 ≠ 0 ∧
    (let s := s7o.withStash (s7o.core.stash.setWindow 7 (some window1))
     s.core.stash.window 7 ≠ none ∧ ∃ v ∈ s.core.stash.mapped, overlap v.box (0x100000, 0x100000 + 2 ^ 14) = true) ∧
    (let s := s7o.withStash { s7o.core.stash with aperture := some ⟨0x100000, [0]⟩ }
     overlap (0x100000, 0x100000 + 2 ^ 14) s.core.apertureBox = true) ∧
    ¬((s7o.core.xr 2#6).toNat ≤ s7o.sheafCores.length) := by
  refine ⟨by decide, by decide, ⟨by decide, window1, by decide, by decide⟩, by decide, by decide⟩

/-- The badger of s8r with queues as given; the strand of s8s with its window counts used up, or on sixteen other pairs. -/
def s18q (g : GradQueue) : State := { s8r with card := { s8r.card with queues := [g] } }
def s18c (ws : List WindowCount) : State := { s8s with core := { s8s.core with windowCounts := ws } }

theorem witness_GradientQueueResults_faults :
    ((s8s.card.queues.find? fun g => g.launch == s8s.core.launchOf && g.queue == 3) = none ∧ s8s.core.kind ≠ .command ∧
      (queue1 [] []).lanes.find? (fun x => x.lane == 2) = none ∧ s8s.core.num ≠ 256 + (queue1 [] []).badger ∧
      ({ queue1 [] [] with fmt := 4#5 } : GradQueue).fmt ≠ 2#5 ∧ (s8s.core.tr 2#5).rows = 0) ∧
    ((s18q (queue1 [] [])).core.num = 256 + (queue1 [] []).badger ∧ (∃ x ∈ (queue1 [] []).lanes, x.entries = [])) ∧
    (let g := queue1 [⟨tile8 1 2, 77#64, 0#64, 0⟩] [⟨tile8 1 2, 78#64, 0#64, 3⟩]
     ∃ e es, (g.lanes.map fun x => x.entries.head?) = (e :: es).map some ∧ ∃ f ∈ es, f.tile.rows ≠ e.tile.rows ∨ f.key ≠ e.key) ∧
    ((s18c [⟨2, 4, 0⟩]).core.windowCount 2 4 = some 0 ∧
      ((s18c ((List.range 16).map fun i => ⟨9, i, 1⟩)).core.windowCount 2 4 = none ∧
        16 ≤ (s18c ((List.range 16).map fun i => ⟨9, i, 1⟩)).core.windowCounts.length)) := by
  refine ⟨by decide, ⟨by decide, ⟨1, none, []⟩, by decide, rfl⟩, ⟨_, [_], rfl, _, List.mem_singleton.2 rfl, by decide⟩, by decide⟩

theorem witness_MessageResults_faults : 2 ^ 48 ≤ (0x1000000000000#64).toNat ∧ tilesAllowed s3 [31#5] ∧ (s3.core.tr 31#5).rows = 0 ∧
    8 ≤ ({ s3.core with unaccepted := 8 } : Core).unaccepted ∧ s3.core.inbox = [] := by
  refine ⟨by decide, ?_, by decide, by decide, rfl⟩
  unfold tilesAllowed
  decide

/-- The transfer that CPYGO takes from the shadows of a channel, and the states of its faults. -/
def snapshot18 (c : CopyChannel) : Transfer := ⟨c.nextSeq, c.src.toNat, c.dst.toNat, c.rows.toNat, c.rowbytes.toNat, c.sstride.toInt, c.dstride.toInt,
  c.flags.toNat % 4, c.flags.getLsbD 2, c.rz.toNat, false, 0, 0, false, 1⟩

set_option maxRecDepth 20000 in
theorem witness_CopyResults_faults :
    (¬1 ≤ (snapshot18 { channel3 with rows := 0#64 }).rows) ∧
    (boxOf (snapshot18 channel3).src 3 40 (-0x100000)).1 < 0 ∧ 2 ^ 52 < (boxOf (2 ^ 52 - 8) 3 40 100).2 ∧
    ((snapshot18 { channel3 with flags := 4#64, rz := 8#64 }).rzen = true ∧ (snapshot18 { channel3 with flags := 4#64, rz := 8#64 }).rz % 16 ≠ 0) ∧
    (∃ b d m, s3.copyFault { snapshot18 channel3 with dst := 0x80000000 } = some (b, d, m)) ∧
    (4 ≤ ({ channel3 with queue := List.replicate 4 (transfer7 false 0) } : CopyChannel).queue.length) ∧
    ((snapshot18 { channel3 with flags := 4#64, rz := 0x40000#64 }).rz % 16 = 0 ∧ s9z.inStash 0x40000 = true ∧ 120 < 2 ^ 28 ∧
      (s9z.rendezvous 0x40000).bytes + 120 < 2 ^ 28) ∧
    (let s : State := { s9q true 0 with core := { (s9q true 0).core with ps := 2#64 } }
     s.core.latetrap = true ∧ ¬∀ u ∈ s.core.copies[3].queue, seqWindow 29 s.core.copies[3].lastSeq 7 < seqWindow 29 s.core.copies[3].lastSeq u.seq) := by
  refine ⟨by decide, by decide, by decide, by decide, ⟨_, _, _, rfl⟩, by decide, by decide, by decide⟩

/-- An object whose byte count is full. -/
def s18z : State := { s9z with core := { s9z.core with stash := { s9z.core.stash with
  bytes := writeBytes s9z.core.stash.bytes 0 (toBytes 16 ((2 ^ 28 - 1) * 2 ^ 32)), granules := [(0, ⟨true, false, s9z.core.stash.ver, -1#128⟩)] } } }

set_option maxRecDepth 20000 in
theorem witness_CopyResults_overflow : 2 ^ 28 ≤ (s18z.rendezvous 0x40000).bytes + 120 := by decide

set_option maxRecDepth 20000 in
theorem witness_CollectiveResults_faults :
    (0x10040 % 128 ≠ 0 ∧ 0x10020 % 64 ≠ 0 ∧ (s9q true 0).linkClear [(0x11000, 0x11014)] = false) ∧
    (let s : State := { s9c [.pending] with core := { (s9c [.pending]).core with ps := 2#64 } }
     s.core.latetrap = true ∧ s.core.kind ≠ .command) ∧
    0 < seqWindow 28 (((s9c []).core.linkSeq + 2 ^ 28 - 1) % 2 ^ 28) 1 := by
  and_intros <;> decide

/-- The tree of R272 over leaves. -/
def tree18 (leaf : Nat → Option (Nat × Bool × Word)) : Nat → Nat → Option (Nat × Bool × Word)
  | 0, j => leaf j
  | h + 1, j => match tree18 leaf h (2 * j), tree18 leaf h (2 * j + 1) with
    | none, y => y
    | x, none => x
    | some (op, u, v), some (_, _, w) => some (op, u, syOp op u v w)

/-- A tree over given leaves is what RoundResults asks of N; three cores of s18r contribute, with two operations. -/
theorem tree18_step (leaf : Nat → Option (Nat × Bool × Word)) (h j : Nat) :
    tree18 leaf (h + 1) j = match tree18 leaf h (2 * j), tree18 leaf h (2 * j + 1) with
      | none, y => y
      | x, none => x
      | some (op, u, v), some (_, _, w) => some (op, u, syOp op u v w) := rfl

def members18 : List SyMember :=
  [⟨0, some 0, 0, 5#16, [.value 0 false 9#64]⟩, ⟨1, some 1, 1, 5#16, [.value 1 false 4#64]⟩, ⟨2, some 3, 3, 5#16, [.value 0 true 2#64]⟩]

def leaf18 (j : Nat) : Option (Nat × Bool × Word) :=
  match j with
  | 0 => some (0, false, 9#64)
  | 1 => some (1, false, 4#64)
  | 3 => some (0, true, 2#64)
  | _ => none

theorem witness_RoundResults_tree :
    (∀ m ∈ members18, ∀ op u v, m.arrivals.headD .none = .value op u v → leaf18 (m.core.getD 0) = some (op, u, v)) ∧
    (∀ j, (∀ m ∈ members18, m.core.getD 0 ≠ j) → leaf18 j = none) ∧ (tree18 leaf18 8 0).isSome = true := by
  refine ⟨?_, ?_, by decide⟩
  · simp [members18, leaf18]
  · intro j h
    simp [members18] at h
    obtain ⟨h0, h1, h3⟩ := h
    unfold leaf18
    split <;> simp_all

set_option maxRecDepth 20000 in
theorem test_round_tree : ∃ t, exec (.roundComplete 0) { s3 with card := { s3.card with segments := [{ segment1 5#16 [] with members := members18 }] } } = .next t ∧
    t.card.segments.map (fun g => g.results.head?.map fun r => r.red) = [some ((tree18 leaf18 8 0).map (fun x => x.2.2) |>.getD 0#64)] :=
  ⟨_, rfl, by decide⟩

theorem witness_RendezvousResults_waits : ({ s9z with core := { s9z.core with parked := .preempting } } : State).core.parked ≠ .free ∧
    (s9u.card.rendezvous.head?.map RzUpdate.older) = some 0 := by decide

/-- CPYWAIT in slot 0, which waits, and behind it what reads, and HALT. -/
def s18e (i : Instr) : State :=
  let slots := [.cpywait 5#6 4#6 1#6, i, .halt].map (fun j => ((encode j).getD 0#96).toNat) ++ [0, 0]
  let s := waitsFor (s9q true 40) (.cpywait 5#6 4#6 1#6)
  { s with core := { s.core with
    copies := s.core.copies.set 3 { s.core.copies[3] with wm := 0x11028#64 }
    lineBuffer := [⟨tagOf 1 0, slots.flatMap (toBytes 12) ++ toBytes 4 (lineWordOf slots)⟩] } }
def s18h (i : Instr) : State := { s18e i with core := { (s18e i).core with waiting := none, waitFrom := none, early := [] } }

set_option maxRecDepth 200000 in
theorem witness_PipelineEventResults_early :
    (s18e (.mfs 7#6 0x238#12)).atHead = true ∧ (s18e (.mfs 7#6 0x238#12)).core.early = [] ∧ (s18e (.mfs 7#6 0x238#12)).core.kind ≠ .command ∧
    channelAllowed (s18e (.mfs 7#6 0x238#12)) 3 ∧
    ∃ g, (s18h (.mfs 7#6 0x238#12)).fetch = .ok (g, .cpywait 5#6 4#6 1#6) ∧ endingOf (execCpywait 5#6 4#6 1#6) g = .waits ∧
      ∃ g', g.retire.fetch = .ok (g', .mfs 7#6 0x238#12) :=
  ⟨by decide, by decide, by decide, .inr (by decide), _, rfl, by decide, _, rfl⟩

set_option maxRecDepth 200000 in
theorem witness_PipelineEventResults_engine :
    (s18e (.cpystat 7#6 3#8)).atHead = true ∧ (s18e (.cpystat 7#6 3#8)).core.early = [] ∧
    ∃ g, (s18h (.cpystat 7#6 3#8)).fetch = .ok (g, .cpywait 5#6 4#6 1#6) ∧ endingOf (execCpywait 5#6 4#6 1#6) g = .waits ∧
      ∃ g', g.retire.fetch = .ok (g', .cpystat 7#6 3#8) ∧ ∃ g'', g'.retire.fetch = .ok (g'', .halt) ∧ passingOf .halt = .stops :=
  ⟨by decide, by decide, _, rfl, by decide, _, rfl, _, rfl, rfl⟩

set_option maxRecDepth 200000 in
theorem test_early_watermark : ∃ t, exec .valueReturn (s18e (.mfs 7#6 0x238#12)) = .next t ∧
    t.core.early = [⟨1, true, none, [(7#6, 0x11028#64)], []⟩] := ⟨_, rfl, by decide⟩

set_option maxRecDepth 200000 in
theorem test_early_status : ∃ t, exec .engineIssue (s18e (.cpystat 7#6 3#8)) = .next t ∧
    t.core.early = [⟨1, true, none, [(7#6, 0x160000007#64)], []⟩] := ⟨_, rfl, by decide⟩

/-- A transfer whose bytes an object counts, under way. -/
def s18t : State := { s9z with core := { s9z.core with
  copies := s9z.core.copies.set 3 { channel3 with nextSeq := 8, queue := [{ transfer7 true 0 with rzen := true, rz := 0x40000 }] } } }

set_option maxRecDepth 20000 in
theorem witness_CopyEventResults_rendezvous : s18t.core.beatChannel = some 3 ∧ s18t.beatFails { transfer7 true 0 with rzen := true, rz := 0x40000 } = false ∧
    s18t.inStash 0x40000 = true ∧ s18t.card.hostLines = [] := by
  decide

/-! ### Witnesses for the clauses on logs, ends, errors and the bridge -/

theorem witness_EntryEventResults_report : sameStrand s10p.core.strand (strandWord 1#16 2#16 0) = true ∧
    strandIncarnation s10p.core.strand ≠ strandIncarnation (strandWord 1#16 2#16 0) := by decide

theorem witness_WaitEventResults_early : (waitsFor s3 (.sleep 5#6 0#6)).core.early = [] := by decide

theorem witness_DeliveryEventResults_more :
    (({ s11d.core with parked := .preempting } : Core).parked ≠ .free ∧ s11d.placesStrand message1.target = true) ∧
    (let s : State := { s11d with
       peer := { s11d.peer with launches := [launch1] }
       card := { s11d.card with launches := [] }
       core := { s11d.core with run := .idle } }
     (∀ d ∈ s.core :: s.card.cores, ¬(d.run = .running ∧ sameStrand d.strand message1.target = true)) ∧ s.placesStrand message1.target = false ∧
      (∃ l ∈ s.peer.launches, l.id = strandLaunch message1.target) ∧ s.card.bridge.up = false) := by
  refine ⟨by decide, by decide, by decide, ⟨launch1, by decide, by decide⟩, by decide⟩

/-- A side log of a RED, a sketch post, a push and an entry with a mark, each as the oldest pending one, and the state that its replay begins in. -/
def entries19 : List LogEntry := [entry1 red1, entry1 (post1 .skZero 0x30000), entry1 (post1 (.push 2 4) 0), { entry1 red1 with marked := true }]
def s19 (e : LogEntry) : State := s11 [] [log1 [e] false false]

set_option exponentiation.threshold 512 in
set_option maxRecDepth 20000 in
theorem witness_SideLogEventResults_chain :
    (∀ e ∈ entries19, ((s11 [] [log1 [e] false true]).card.sideLog 4 0).rung = true ∧
      ((s19 e).card.sideLog 4 0).entries.find? (fun e => e.state == .pending) = some e ∧ e.cause / 64 = 3 ∧ (s19 e).secondSender e.post = false) ∧
    ((s19 (entry1 red1)).redFault red1 0 = none ∧ readCheck none red1.addr (redBytes 0) = .ok () ∧ (s19 (entry1 red1)).peerWaits red1 = false ∧
      (s19 (entry1 red1)).heldBy ((s19 (entry1 red1)).applyLogged red1 0 0) = []) ∧
    (∃ plan, (s19 (entry1 red1)).planSketch (post1 .skZero 0x30000) none = .ok plan ∧
      (s19 (entry1 red1)).heldBy ((s19 (entry1 red1)).applyPlan (post1 .skZero 0x30000) plan) = []) ∧
    (∃ c d b, readCheck (some 0x50000) red1.addr (redBytes 0) = .error (c, d, b)) ∧
    ∃ c d b, (s19 (entry1 red1)).planSketch (post1 .skZero 0x80000000) none = .error (c, d, b) := by
  refine ⟨by decide, by decide, ⟨_, rfl, by decide⟩, ⟨_, _, _, rfl⟩, ⟨_, _, _, rfl⟩⟩

set_option maxRecDepth 20000 in
theorem witness_SideLogEventResults_sender :
    let g : GradQueue := { queue1 [] [] with lanes := [⟨4, some (strandWord 1#16 1#16 1), []⟩] }
    let s : State := { s19 (entry1 (post1 (.push 2 4) 0)) with card := { (s19 (entry1 (post1 (.push 2 4) 0))).card with queues := [{ g with launch := 0#16 }] } }
    s.secondSender (post1 (.push 2 4) 0) = true := by decide

theorem witness_CommandResults_registers : 0x48 ∉ [0x00, 0x08, 0x10, 0x18, 0x40] ∧ (s13.fn 16).cprod = (s13.fn 16).ccons := by decide

set_option maxRecDepth 20000 in
theorem witness_LaunchCommandResults_more :
    (({ part0 with preempted := true } : Partition).preempted = true ∧ ({ part0 with preempted := true } : Partition).preempting = none) ∧
    (let k : Card := { s13.card with launches := [{ launch1 with record := record1.set 6 0#64 }] }
     k.preemptible 0 = false) := by decide

theorem witness_StrandStartResults_past : strand1.past.length < 2 ^ 15 := by decide

set_option maxRecDepth 20000 in
theorem witness_DispatcherResults_more :
    (s14w.card.freed 2#16 = false ∧ (∃ c ∈ ([0] : List Nat), s14w.card.occupied c = true)) ∧
    (let k : Card := { s14w.card with launches := [{ launch1 with sheaves := [], strands := [] }, waiting1] }
     k.freed 2#16 = true) ∧
    (∀ c ∈ (s14 launch1).card.clusters.toList, ∀ o ∈ c.objects, o.launch ≠ launch1.id) := by
  refine ⟨⟨by decide, 0, by decide⟩, by decide, by decide⟩

theorem witness_ErrorEventResults_sets (d : Bool) :
    let l := fullL2 d
    (l2Slice l.tag = l2Slice (tagOf 1 0x10000) ∧ l2Set l.tag = l2Set (tagOf 1 0x10000)) ∧ (l.dmask ≠ 0#128 ↔ d = true) := by
  cases d <;> exact ⟨⟨rfl, rfl⟩, by decide⟩

set_option maxRecDepth 20000 in
theorem witness_ErrorEventResults_lines :
    let k : Card := { s3.card with l2 := [fullL2 true] }
    (k.l2.map L2Line.tag).Nodup ∧ Memory.rising k.hbm = true ∧
      (k.translate 1 (k.lineColour (tagOf 1 0x10000)) 0x10000).map Leaf.target = some (.local 0x10000) ∧ k.lockedLine (tagOf 1 0x10000) = false ∧
      coreArray 5 287 = true ∧ coreArray 6 288 = false ∧ coreArray 9 0 = false := by
  dsimp only
  and_intros <;> decide

set_option exponentiation.threshold 512 in
set_option maxRecDepth 200000 in
theorem witness_BridgeEventResults_acks :
    (let b := makeFlit 0 0 (2 ^ 15 + 9) []
     flitOk b = true ∧ flitKind b = 0 ∧ (flitAck b).testBit 15 = true ∧ (flitAck b).testBit 14 = false) ∧
    (let b : Bridge := { (s15b (request1 1 0 [])).card.bridge with domains := [(7, 1), (0, 1)] }
     b.portOf 0 = some 1 ∧ b.oldestOn 1 = some 0 ∧ b.portOf 7 = some 1 ∧ b.oldestOn 1 ≠ some 7 ∧ b.domains.find? (fun d => d.1 == 3) = none) := by
  dsimp only
  and_intros <;> decide

set_option maxRecDepth 20000 in
theorem witness_StepRunsDecoded_early :
    (let s := fetched (.add 5#6 1#6 2#6)
     let d := s.deliver (lineOf s.core.pc).toNat
     (d.1.prefetch 0 0 d.2).core.early = []) ∧
    (let e : Early := ⟨1, true, none, [(5#6, 7#64)], []⟩
     ([e].find? fun e => e.after == 0) = none ∧ ([{ e with after := 0 }].find? fun e => e.after == 0) = some { e with after := 0 }) := by
  decide

/-! ### Witnesses for the clauses on neighbours, records, waits and lines that the host holds -/

/-- E2M1: 6 is the largest, 4 the one below, 1 the smallest normal; 5 is a tie between 4 and 6, 7 the middle of 6 and the next, 8. -/
theorem witness_RepresentableRoundsToItself_neighbours :
    codeIs e2m1 e2m1.maxBits 6 ∧ codeIs e2m1 (e2m1.maxBits - 1) 4 ∧ codeIs e2m1 (2 ^ e2m1.fbits) 1 ∧
      |signedRatio true 5 1| ≤ 6 ∧ 6 < |signedRatio false 7 1| ∧ |signedRatio false 7 1| = (6 + (6 + (6 - 4))) / 2 := by
  refine ⟨⟨by decide, _, _, _, rfl, ?_⟩, ⟨by decide, _, _, _, rfl, ?_⟩, ⟨by decide, _, _, _, rfl, ?_⟩, ?_, ?_, ?_⟩ <;>
    norm_num [signedRatio, e2m1, FloatFmt.maxBits, FloatFmt.signBit]

theorem test_rounds_to_neighbours :
    roundVal e2m1 .nearest false (.fin true 5 1) = ⟨0xE, flagInexact⟩ ∧ roundVal e2m1 .up false (.fin true 5 1) = ⟨0xE, flagInexact⟩ ∧
    roundVal e2m1 .down false (.fin true 5 1) = ⟨0xF, flagInexact⟩ ∧ roundVal e2m1 .nearest false (.fin false 5 2) = ⟨4, flagInexact⟩ ∧
    roundVal e2m1 .nearest false (.fin false 1 4) = ⟨0, flagInexact ||| flagUnderflow⟩ := by decide

set_option maxRecDepth 20000 in
theorem witness_BranchResults_denied : validPc 0x80000000#64 = true ∧ ∃ d, s2c.checkAccess .fetch 1 0 false 0x80000000 = some d :=
  ⟨by decide, _, rfl⟩

/-- A tile name in supervisor mode or user mode: every check of the records of TLD, TST, TLDX and TSTX fails on some tile of s3t. -/
theorem witness_TileMemoryTraps :
    (tilesAllowed s3t [1#5, 2#5] ∧ tilesAllowed s3t [5#5] ∧ (s3t.core.tr 5#5).rows = 0 ∧ (s3t.core.tr 1#5).fmt ≠ 3#5 ∧
      (s3t.core.tr 2#5).rows ≠ s3t.core.hRows 0#3 ∧ (s3t.core.tr 2#5).rowbytes ≠ s3t.core.hRowbytes 0#3) ∧
    ((s3t.core.tr 1#5).fmt ≠ 10#5 ∧ (s3t.core.tr 2#5).rows * ((s3t.core.tr 2#5).rowbytes / 4) = s3t.core.hRows 0#3) ∧
    (((0x1F#64 : Word).extractLsb' 0 32).toNat < s3t.core.hRowbytes 0#3 + 16 ∧ ((0x12#64 : Word).extractLsb' 0 32).toNat % 4 ≠ 0) ∧
    s3t.core.hRows 0#3 ≤ (s3t.core.tr 2#5).elems.flatten.length ∧ rowIndex s3t 2#5 0 = 3 ∧ (3 : Int) < ((s3t.core.xr 4#6).extractLsb' 32 32).toNat := by
  and_intros <;> decide

set_option maxRecDepth 20000 in
theorem witness_TileMemoryTraps_addresses :
    (∃ b d, s3t.accessFault .load 0x80000000 0x80000010 = some (b, d)) ∧ (∃ b d, s3t.accessFault .store 0x80000000 0x80000010 = some (b, d)) ∧
    (s3t.accessFault .load peerVa (peerVa + 16) = none ∧ ∃ b, s3t.bridgeFault peerVa (peerVa + 16) = some b) ∧
    (∃ b, s17o.readonlyByte 0x40000 0x40010 = some b) :=
  ⟨⟨_, _, rfl⟩, ⟨_, _, rfl⟩, ⟨by decide, _, rfl⟩, _, rfl⟩

/-- The matrix instructions on s5: sources, pins, pairs, rows, bytes of rows, a scale that is bad. -/
def s20m : State := { s5 with core := { s5.core with q := s5.core.q.set 1 0#64 } }

theorem witness_MatrixRecordTraps :
    (tilesAllowed s5 [1#5, 2#5, 7#5, 8#5, 4#5] ∧ s5.core.kind = .compute ∧ s5.core.supervisor = false ∧ (7#3).toNat < s5.core.limits.acc ∧
      (3#2).toNat < s5.core.limits.pins) ∧
    ((s5.core.tr 4#5).rows = 0 ∧ (s5.core.tr 3#5).fmt ∉ [2#5, 3#5, 4#5, 5#5, 6#5, 7#5, 8#5, 9#5] ∧ (s5.core.tr 1#5).fmt ≠ 7#5) ∧
    ((s5.core.wr 2#2).tile.rows = 0 ∧ (s5.core.wr 0#2).tile.fmt = 7#5 ∧ matPair (s5.core.tr 1#5).fmt 7#5 = false) ∧
    ((s5.core.tr 7#5).count ≠ (s5.core.wr 1#2).tile.count ∧ (s5.core.tr 1#5).count ≠ (s5.core.wr 1#2).tile.rows ∧
      (s5.core.wr 1#2).tile.count ≤ 64 ∧ (s5.core.tr 2#5).count ≤ 64) ∧
    (64 < 63 + s5.core.hRows 0#3 ∧ 64 < 57 + (s5.core.tr 1#5).count ∧ scaleOk (s20m.core.qScale 1#4) = false) := by
  and_intros <;> decide

theorem witness_VectorRecordTraps :
    let s := withT (s6 2#5) 10#5 (bytesTile 2 16 10#5 0#4 3)
    (tilesAllowed s [6#5, 1#5, 9#5, 2#5, 10#5, 4#5] ∧ (3#3).toNat ≤ 3) ∧
    ((s.core.tr 4#5).rows = 0 ∧ (s.core.tr 10#5).fmt ∉ [1#5, 2#5, 3#5, 4#5] ∧ (s.core.tr 10#5).fmt ≠ (s.core.tr 1#5).fmt) ∧
    (s.core.hRows 1#3 ≠ (s.core.tr 1#5).rows ∧ s.core.hRowbytes 2#3 ≠ (s.core.tr 1#5).rowbytes ∧ s.core.hRowbytes 2#3 % elemBytes 1#5 = 0 ∧
      (12 : Nat) % elemBytes 1#5 ≠ 0 ∧ elemCount 1#5 12 = 1) ∧
    (11#4 : BitVec 4).toNat > 9 ∧ (scaleOk (({ s with core := { s.core with q := s.core.q.set 3 0#64 } } : State).core.qScale 3#4) = false) ∧
    ((0x200#32).toNat / 256 ≥ (s.core.tr 1#5).rows ∧ (s.core.tr 10#5).Shaped ∧ (s.core.tr 10#5).rowbytes ≤ 128) ∧
    (∃ m < 2, ∃ n < 4, intOf 10#5 ((s.core.tr 10#5).el m n) < 0 ∨ 4 ≤ intOf 10#5 ((s.core.tr 10#5).el m n)) := by
  dsimp only
  and_intros <;> decide

/-- The record of s8 at an address that is odd or beyond 2^52, readonly, behind a full queue, a full buffer or an older store, or of a parked strand. -/
def s20r : State := s8.setCluster 0 { s8.clusterAt 0 with objects := [⟨.readonly, 1, 64, 64, 0x30000, 1#16⟩] }

set_option maxRecDepth 20000 in
theorem witness_PostedWorkTraps :
    ((s17b.core.kind = .badger) ∧ ({ s8 with core := { s8.core with kind := .command } } : State).core.kind = .command) ∧
    ((0x30020#64).toNat % 64 ≠ 0 ∧ 2 ^ 52 ≤ (0x10000000000000#64).toNat ∧ (0x10000000000000#64).toNat % 64 = 0 ∧ (s8.core.xr 10#6).toNat % 64 = 0) ∧
    ((s8.core.tr 4#5).rows = 0 ∧ (s8.core.tr 3#5).fmt ∉ [11#5] ∧ (s8.core.tr 3#5).fmt ∉ [2#5, 3#5, 4#5] ∧ (s8.core.tr 1#5).fmt ∉ [10#5, 11#5] ∧
      2 ^ 40 < (0xFFFFFFFFFF#64).toNat + 2) ∧
    (∀ m p d, decodeFloat fp32 0x7F800000 ≠ .fin m p d) ∧
    (s20r.readonlyByte 0x30000 0x30040 ≠ none ∧ s20r.inStash 0x30000 = false) ∧
    (32 ≤ (List.replicate 32 red1).length ∧ 32768 < 8192 + (List.replicate 4 { red1 with values := bytesTile 64 128 2#5 0#4 0 }).foldl
      (fun m p => m + p.buffered) 0) ∧
    ({ s8.core with parked := .resuming } : Core).parked ≠ .free := by
  refine ⟨by decide, by decide, by decide, ?_, by decide, by decide, by decide⟩
  exact fun m p d h => nomatch (show Val.inf false = .fin m p d from h)

set_option maxRecDepth 20000 in
theorem witness_PostedWorkTraps_store :
    let s : State := { s8 with core := { s8.core with drain := [⟨false, 0x30000, 0x30008, none, [⟨tagOf 1 0x30000, .local 0x30000, [7#8]⟩]⟩] } }
    s.storeClear (0x30000, 0x30040) = true ∧ s.loadClear (0x30000, 0x30040) = false := by decide

set_option exponentiation.threshold 512 in
set_option maxRecDepth 20000 in
theorem witness_SketchReadTraps :
    (∃ b d, s8.memoryDenied .query 1 0 false 0x80000000 64 = some (b, d)) ∧ (s8.memoryDenied .query 1 0 false 0x30000 64 = none) ∧
    (s8.notLocal 1 0 peerVa 64 ≠ none ∧ s8.memoryDenied .query 1 0 false peerVa 64 = none) ∧
    ((s8.record 1 0 0x10000).valid 0x10000 = false ∧ (s8.record 1 0 0x30000).valid 0x30000 = true) ∧
    ((s8.record 1 0 0x30000).base = 0x40000 ∧ s8.memoryDenied .query 1 0 false 0x40000 96 = none ∧ s8.notLocal 1 0 0x40000 96 = none) ∧
    (s8.core.hRows 5#3 * (s8.core.hRowbytes 5#3 / 4) = 1 ∧ ∃ j < 1, ¬(0 ≤ ((1000 + j : Nat) : Int) ∧ ((1000 + j : Nat) : Int) < (s8.record 1 0 0x30000).klimit)) ∧
    (∃ p ∈ ({ s8 with core := { s8.core with posts := [post1 .skZero 0x30000] } } : State).ownPosts, p.isSketch = true) := by
  refine ⟨⟨_, _, rfl⟩, by decide, by decide, by decide, by decide, by decide, post1 .skZero 0x30000, by decide⟩

theorem witness_SynchronisationResults_traps :
    let s : State := { s9s 5#16 [] [held6 none] with core := { (s9s 5#16 [] [held6 none]).core with ps := 1#64 <<< 2 } }
    s.core.sytrap = true ∧ waitedOut s.core ∧ (5#16 - 6#16 : BitVec 16).toInt < 0 ∧ s.heldArrival 3 = some (held6 none) :=
  ⟨by decide, ⟨by decide, _, rfl, by decide⟩, by decide, rfl⟩

set_option maxRecDepth 20000 in
theorem witness_RendezvousResults_traps :
    ((0x40008#64).toNat % 16 ≠ 0 ∧ s9z.inStash 0x10000 = false ∧ (65536 : Nat) > 65535) ∧
    (s17w.inStash 0x80000000 = true ∧ (∃ b d, s17w.accessFault .store 0x80000000 0x80000010 = some (b, d)) ∧
      ∃ b d, s17w.accessFault .load 0x80000000 0x80000010 = some (b, d)) ∧
    (let s : State := { s9z with core := { s9z.core with ps := 1#64 <<< 2 } }
     s.core.sytrap = true ∧ waitedOut s.core ∧ s.loadClear (0x40000, 0x40010) = true ∧ (0#64).toNat % 16 = 0) :=
  ⟨by decide, ⟨by decide, ⟨_, _, rfl⟩, _, _, rfl⟩, by decide, ⟨by decide, _, rfl, by decide⟩, by decide, by decide⟩

/-- The strand with a RED in its post queue, or an STL at SYSTEM scope under way into a line that the host may hold. -/
def s20p : State := { s3 with core := { s3.core with posts := [red1] } }
def write20 : DrainWrite := ⟨tagOf 0 (sharedVa 0), .local 0x80000000, [7#8]⟩
def s20h : State := { s3 with
  core := { s3.core with drain := [⟨false, sharedVa 0, sharedVa 0 + 1, some 3, [write20]⟩] }
  card := { s3.card with hostLines := [tagOf 0 (sharedVa 0)] } }

set_option maxRecDepth 20000 in
theorem witness_OrderingResults_waits :
    (s20p.ownPosts ≠ [] ∧ (∃ p ∈ s20p.ownPosts, p.isRed = true) ∧ s20p.releaseReady 0 = false) ∧
    ((s10 (.local 0x10000) none).drained = false ∧ (s9c [.pending]).ownColls ≠ [] ∧ (s9q true 0).core.copies[(3 : Fin 8)].queue ≠ []) ∧
    ({ s3.core with unaccepted := 1 } : Core).unaccepted ≠ 0 ∧
    ((0x200#32).getLsbD 9 = true ∧ (0x100#32).getLsbD 8 = true ∧ (0x8#32).getLsbD (3 : Fin 8) = true) := by
  refine ⟨⟨by decide, ⟨red1, by decide⟩, by decide⟩, by decide, by decide, by decide⟩

set_option maxRecDepth 20000 in
theorem witness_StepFollowsAgenda_held :
    (let s : State := { s20h with core := { s20h.core with machineChecks := [cause15] } }
     ∃ t, exec .asynchronousEntry s = .next t ∧ s.heldBy t ≠ []) ∧ s20h.heldBy s20h.drainOne ≠ [] ∧ encode .asynchronousEntry = none ∧
    clearsHostBits .asynchronousEntry = false ∧ clearsHostBits (.bisnpResponse 0) = true := ⟨⟨_, rfl, by decide⟩, by decide⟩

set_option maxRecDepth 20000 in
theorem witness_PipelineEventResults_ports :
    let s : State := { s10 .peer none with card := { (s10 .peer none).card with bridge := { (s10 .peer none).card.bridge with
      up := true, ports := Vector.replicate 4 { Port.reset with retraining := true } } } }
    s.card.bridge.portOf s.core.num = none ∧ s.core.drain ≠ [] ∧ s.dueUpdate = none ∧ s.core.sent = false := by decide

theorem witness_EntryEventResults_overtaken :
    let r : Report := ⟨0, strandWord 1#16 1#16 0, cause12, 9⟩
    let s : State := { s10p with card := { s10p.card with reports := [r, { r with number := 3 }] } }
    s.overtaken (32 + r.exc.finfo.toNat / 2 ^ 32, stopOf r.core) r.number = true ∧ s.card.reports[0]? = some r := by decide

set_option maxRecDepth 20000 in
theorem witness_CopyEventResults_fails :
    let s : State := s9q true 0
    let t := { transfer7 true 0 with src := 0x80000000 }
    let u : State := { s with core := { s.core with copyTurn := 4, copies := s.core.copies.set 3 { channel3 with nextSeq := 8, queue := [t] } } }
    u.beatFails t = true ∧ u.core.beatChannel = some 3 := by decide

set_option exponentiation.threshold 512 in
set_option maxRecDepth 20000 in
theorem witness_CollectiveEventResults_denied :
    let a := coll1 (.red 5) 0x80000000 .pending
    let s := s11c true a a
    s.bufferOk a 5 = false ∧ s.swap.bufferOk a 5 = false ∧ s.card.bridge.up = true ∧ linkFirst s.card.colls a = true := by decide

theorem witness_ErrorEventResults_memory :
    (s12 false).card.l2Find (tagOf 1 0x10000) = some (fullL2 false) ∧ s3.card.l2Find (tagOf 1 0x10000) = none ∧
    (let k : Card := { s3.card with partitions := [] }
     coreArray 5 5 = true ∧ ((errors15.filter fun q => decide (0 < q.2 + 2 ^ 30)).filter fun q => q.1 == 5).length = 63 ∧ k.coreOwner 5 = none ∧
      k.service.mappedOut = []) := by decide

/-- A strand that PREACK has stopped keeps a cause of class 15, nine reports and the code that it has not fetched. -/
theorem witness_StrandStartResults_kept :
    let i : StrandInfo := { strand1 with stopped := true, kept := cause15 :: List.replicate 9 cause12 }
    i.kept.filter (fun x => x.cls == 15) = [cause15] ∧ ((i.kept.filter fun x => x.cls != 15).take 8).length = 8 := by decide

set_option maxRecDepth 20000 in
theorem test_stop_ends : (s7 false).stopStrand.core.run = .idle ∧ (s7 false).stopStrand.card.ends = [(1#16, 0)] := by decide

/-- LDA by the strand while nothing that it reads is held for the host (R434). -/
theorem witness_LoadResults_held :
    let p := s3.scopePoint 2 0x10000
    s3.heldBy (((s3.readThrough.yieldLine p 0x10000).readAt p 0x10000 4).passCopies p 0x10000) = [] ∧
      (s3.core.waiting.map Wait.behind).getD [] = [] := by decide

/-- R42's cell for Down and Up, and R54's row for underflow. -/
theorem test_overflow_words : overflowCode fp32 true .up false = 0x7F7FFFFF ∧ overflowCode fp32 false .down false = 0xFF7FFFFF ∧
    overflowCode fp32 true .down false = 0xFF800000 ∧ toIntRange .nearest (-128) 127 (.fin false 1 4) = (0, flagInexact ||| flagUnderflow) := by decide

end Sys2Proof.Tests
end

section
/-! PROOFS. Scalar division (R94) and sequential flow (R61, R67, R71, R110-R112). -/

namespace Sys2Proof.Machine

/-! ### DIV and REM -/

theorem quotient_unsigned (a b : Word) : quotient true a b = BitVec.ofNat 64 (a.toNat / b.toNat) := BitVec.udiv_def

theorem remainder_unsigned (a b : Word) : remainder true a b = BitVec.ofNat 64 (a.toNat % b.toNat) := BitVec.umod_def

/-- R94: a signed quotient truncates toward zero; −2^63 by −1 is the one that wraps. -/
theorem quotient_signed (a b : Word) : quotient false a b = BitVec.ofInt 64 (a.toInt.tdiv b.toInt) := by
  apply BitVec.eq_of_toInt_eq
  simp [quotient, BitVec.toInt_sdiv, BitVec.toInt_ofInt]

/-- R94: a signed remainder has the sign of the dividend, and never wraps. -/
theorem remainder_signed (a b : Word) : remainder false a b = BitVec.ofInt 64 (a.toInt.tmod b.toInt) := by
  rw [← BitVec.toInt_srem, BitVec.ofInt_toInt]
  rfl

theorem exec_div (s : State) (xd xa xb : BitVec 6) (u : Bool) :
    exec (.div xd xa xb u) s = s.finishCore (if s.core.xr xb = 0#64 then .error ⟨5, 0, 0#64, 0x14#64⟩
      else .ok (s.core.setX xd (quotient u (s.core.xr xa) (s.core.xr xb)))) := rfl

theorem exec_rem (s : State) (xd xa xb : BitVec 6) (u : Bool) :
    exec (.rem xd xa xb u) s = s.finishCore (if s.core.xr xb = 0#64 then .error ⟨5, 0, 0#64, 0x15#64⟩
      else .ok (s.core.setX xd (remainder u (s.core.xr xa) (s.core.xr xb)))) := rfl

theorem exec_div_of_ne_zero (s : State) (xd xa xb : BitVec 6) (u : Bool) (h : s.core.xr xb ≠ 0#64) :
    ∃ t, exec (.div xd xa xb u) s = .next t ∧ s.WritesX t xd (quotient u (s.core.xr xa) (s.core.xr xb)) 0#5 := by
  rw [exec_div, if_neg h]
  exact s.writesX_plain xd _

theorem exec_rem_of_ne_zero (s : State) (xd xa xb : BitVec 6) (u : Bool) (h : s.core.xr xb ≠ 0#64) :
    ∃ t, exec (.rem xd xa xb u) s = .next t ∧ s.WritesX t xd (remainder u (s.core.xr xa) (s.core.xr xb)) 0#5 := by
  rw [exec_rem, if_neg h]
  exact s.writesX_plain xd _

theorem exec_div_of_eq_zero (s : State) (xd xa xb : BitVec 6) (u : Bool) (h : s.core.xr xb = 0#64) :
    exec (.div xd xa xb u) s = .next (s.enter ⟨5, 0, 0#64, 0x14#64⟩) := by
  rw [exec_div, if_pos h]
  rfl

theorem exec_rem_of_eq_zero (s : State) (xd xa xb : BitVec 6) (u : Bool) (h : s.core.xr xb = 0#64) :
    exec (.rem xd xa xb u) s = .next (s.enter ⟨5, 0, 0#64, 0x15#64⟩) := by
  rw [exec_rem, if_pos h]
  rfl

/-- Settles O2: the value of each form comes from the quotient or the remainder of two words, the trap from the test of the divisor. -/
theorem divisionResults : Obligations.DivisionResults := by
  refine ⟨fun s xd xa xb h => ⟨?_, ?_, ?_, ?_⟩, fun s xd xa xb u h =>
    ⟨exec_div_of_eq_zero s xd xa xb u h, exec_rem_of_eq_zero s xd xa xb u h⟩⟩
  · simpa only [quotient_unsigned] using exec_div_of_ne_zero s xd xa xb true h
  · simpa only [remainder_unsigned] using exec_rem_of_ne_zero s xd xa xb true h
  · simpa only [quotient_signed] using exec_div_of_ne_zero s xd xa xb false h
  · simpa only [remainder_signed] using exec_rem_of_ne_zero s xd xa xb false h

/-! ### Integer conditions -/

/-- The model's test of a condition is the condition of R76, for the ten codes that R76 defines. -/
theorem intCondHolds_iff (cond : BitVec 4) (a b : Word) (h : cond.toNat ≤ 9) :
    intCondHolds cond a b = true ↔ integerCondition cond a b := by
  unfold intCondHolds integerCondition
  generalize cond.toNat = n at h
  interval_cases n <;> simp [BitVec.slt, BitVec.sle, BitVec.ult, BitVec.ule]

/-! ### Slots of the sequential flow -/

/-- R61: a valid PC stands at one of the five slots of its line. -/
theorem pcOffset_of_validPc {pc : Word} (h : validPc pc = true) : ∃ k < 5, pcOffset pc = 12 * k := by
  simp only [validPc, Bool.and_eq_true, Bool.or_eq_true, beq_iff_eq] at h
  exact ⟨pcOffset pc / 12, by omega, by omega⟩

theorem slotsOn_eq {pc : Word} {k : Nat} (h : pcOffset pc = 12 * k) (n : Nat) :
    slotsOn pc n = lineOf pc + BitVec.ofNat 64 (64 * ((k + n) / 5) + 12 * ((k + n) % 5)) := by
  have hk : pc.toNat % 64 / 12 = k := by unfold pcOffset at h; omega
  simp only [slotsOn, lineOf, pcOffset, hk]

theorem slotsOn_zero {pc : Word} {k : Nat} (hk : k < 5) (h : pcOffset pc = 12 * k) : slotsOn pc 0 = pc := by
  simp [slotsOn_eq h, lineOf, h, Nat.div_eq_of_lt hk, Nat.mod_eq_of_lt hk]

theorem nextPc_of_last {pc : Word} (h : pcOffset pc = 12 * 4) : nextPc pc = pc + 16#64 := if_pos h

theorem nextPc_of_inner {pc : Word} {k : Nat} (hk : k < 4) (h : pcOffset pc = 12 * k) : nextPc pc = pc + 12#64 := if_neg (by omega)

/-- The slot after slot k is slot k + 1, or slot 0 after slot 4. -/
theorem pcOffset_nextPc {pc : Word} {k : Nat} (hk : k < 5) (h : pcOffset pc = 12 * k) :
    pcOffset (nextPc pc) = 12 * ((k + 1) % 5) := by
  rcases Nat.lt_succ_iff_lt_or_eq.mp hk with hk | rfl
  · rw [nextPc_of_inner hk h, Nat.mod_eq_of_lt (by omega)]
    unfold pcOffset at h ⊢
    bv_omega
  · rw [nextPc_of_last h]
    unfold pcOffset at h ⊢
    bv_omega

/-- The line changes after slot 4 only. -/
theorem lineOf_nextPc {pc : Word} {k : Nat} (hk : k < 5) (h : pcOffset pc = 12 * k) :
    lineOf (nextPc pc) = lineOf pc + BitVec.ofNat 64 (64 * ((k + 1) / 5)) := by
  have hnext := pcOffset_nextPc hk h
  rcases Nat.lt_succ_iff_lt_or_eq.mp hk with hk | rfl
  · rw [Nat.mod_eq_of_lt (by omega)] at hnext
    rw [lineOf, lineOf, hnext, h, nextPc_of_inner hk h, Nat.div_eq_of_lt (by omega), Nat.mul_succ, BitVec.ofNat_add]
    bv_omega
  · rw [lineOf, lineOf, hnext, h, nextPc_of_last h]
    bv_omega

theorem slotsOn_nextPc {pc : Word} {k : Nat} (hk : k < 5) (h : pcOffset pc = 12 * k) (n : Nat) :
    slotsOn (nextPc pc) n = slotsOn pc (n + 1) := by
  have hslot : 64 * ((k + 1) / 5) + (64 * (((k + 1) % 5 + n) / 5) + 12 * (((k + 1) % 5 + n) % 5)) =
      64 * ((k + (n + 1)) / 5) + 12 * ((k + (n + 1)) % 5) := by omega
  rw [slotsOn_eq (pcOffset_nextPc hk h), slotsOn_eq h, lineOf_nextPc hk h, BitVec.add_assoc, ← BitVec.ofNat_add, hslot]

/-- Stepping slot by slot is what R61 counts, from any slot of a line. -/
theorem skipPc_eq_slotsOn (n : Nat) : ∀ {pc : Word} {k : Nat}, k < 5 → pcOffset pc = 12 * k → skipPc n pc = slotsOn pc n := by
  induction n with
  | zero => exact fun hk h => (slotsOn_zero hk h).symm
  | succ n ih =>
    intro pc k hk h
    calc skipPc n (nextPc pc)
      _ = slotsOn (nextPc pc) n := ih (Nat.mod_lt _ (by decide)) (pcOffset_nextPc hk h)
      _ = slotsOn pc (n + 1) := slotsOn_nextPc hk h n

theorem skipPc_of_validPc {pc : Word} (h : validPc pc = true) (n : Nat) : skipPc n pc = slotsOn pc n := by
  obtain ⟨k, hk, hoff⟩ := pcOffset_of_validPc h
  exact skipPc_eq_slotsOn n hk hoff

theorem nextPc_of_validPc {pc : Word} (h : validPc pc = true) : nextPc pc = slotsOn pc 1 := skipPc_of_validPc h 1

/-! ### NOP, hints, CMPSK and CMPSKI -/

theorem retire_of_validPc {s : State} (h : validPc s.core.pc = true) :
    s.retire = { s with core := s.core.leave (slotsOn s.core.pc 1) } := by
  rw [← nextPc_of_validPc h]
  rfl

/-- R110: the skip that holds passes its n annulled slots. -/
theorem skip_of_holds {s : State} (h : validPc s.core.pc = true) {holds : Bool} (hc : holds = true) (n : BitVec 2) :
    s.skip holds n = { s with core := s.core.leave (slotsOn s.core.pc (n.toNat + 1)) } := by
  rw [← skipPc_of_validPc h, hc]
  rfl

/-- R110: the skip that does not hold falls through. -/
theorem skip_of_not_holds {s : State} (h : validPc s.core.pc = true) {holds : Bool} (hc : ¬holds = true) (n : BitVec 2) :
    s.skip holds n = { s with core := s.core.leave (slotsOn s.core.pc 1) } := by
  rw [← nextPc_of_validPc h, Bool.eq_false_of_not_eq_true hc]
  rfl

/-- Settles O8: each form leaves for a PC some slots on, and stepping slot by slot agrees with counting them over the lines. -/
theorem sequentialFlow : Obligations.SequentialFlow := by
  intro s xa xb cond skip imm h payload hpc hcond _ goes
  have hxb := intCondHolds_iff cond (s.core.xr xa) (s.core.xr xb) hcond
  have himm := intCondHolds_iff cond (s.core.xr xa) imm hcond
  refine ⟨?_, ?_, fun hc => ?_, fun hc => ?_, fun hc => ?_, fun hc => ?_⟩
  · exact congrArg Host.Outcome.next (retire_of_validPc hpc)
  · exact congrArg Host.Outcome.next (retire_of_validPc hpc)
  · exact congrArg Host.Outcome.next (skip_of_holds hpc (hxb.mpr hc) skip)
  · exact congrArg Host.Outcome.next (skip_of_not_holds hpc (hc ∘ hxb.mp) skip)
  · exact congrArg Host.Outcome.next (skip_of_holds hpc (himm.mpr hc) skip)
  · exact congrArg Host.Outcome.next (skip_of_not_holds hpc (hc ∘ himm.mp) skip)

end Sys2Proof.Machine
end
